-- ==== Sys2Proof/Word.lean ====
section
/-! DEFINITION. The types of the block's values, each as wide as the field or register that holds it (30_encoding.md R70, R76,
R81; the width parameters of 00_scope.md R7 are fields of Config and bound the values), and the plain data that cross its two ports:
the 5-byte image, the oracle's answer to a read, and the bus events of 10_state.md R44. -/

namespace Sys2Proof

/-- A host command word (30_encoding.md R80). -/
abbrev Word := BitVec 32

/-- A byte of an image (00_scope.md R10). -/
abbrev Byte := BitVec 8

/-- A frequency operand, probe register or preset entry in Hz: 27 bits (30_encoding.md R81, 10_state.md R37, R39). -/
abbrev Freq := BitVec 27

/-- The PLL word: the field is 14 bits wide (30_encoding.md R70, R76). -/
abbrev Pll := BitVec 14

/-- A level operand of a command word, 3 bits (30_encoding.md R78). -/
abbrev Level := BitVec 3

/-- A stop-level code, 2 bits (30_encoding.md R77). -/
abbrev StopCode := BitVec 2

/-- The IF counter: the register is 7 bits wide (10_state.md R30). -/
abbrev Ifc := BitVec 7

/-- The ADC level: the register is 4 bits wide (10_state.md R31). -/
abbrev Adc := BitVec 4

/-- A 7-bit bus address (20_memory.md R51). -/
abbrev BusAddr := BitVec 7

/-- Five ordered bytes: the shape of the write image and of the read image (10_state.md R21, R23); `b0` is byte 0, the
first on the wire (20_memory.md R52). -/
structure Image where
  b0 : Byte
  b1 : Byte
  b2 : Byte
  b3 : Byte
  b4 : Byte
  deriving DecidableEq, Repr, Inhabited

/-- Byte `i` of an image, `W[i]` of 00_scope.md R11; an image has no byte past 4. -/
def Image.byte (m : Image) : Nat → Byte
  | 0 => m.b0
  | 1 => m.b1
  | 2 => m.b2
  | 3 => m.b3
  | 4 => m.b4
  | _ => 0#8

/-- The injection side (10_state.md R36). -/
inductive Side where
  | high
  | low
  deriving DecidableEq, Repr, Inhabited

/-- What the bus oracle answers to a read: any five bytes, or a timeout (20_memory.md R55). -/
inductive ReadAnswer where
  | timeout
  | bytes (m : Image)
  deriving DecidableEq, Repr, Inhabited

/-- One event of the bus history (10_state.md R44). -/
inductive BusEvent where
  /-- One write transaction of five bytes, byte 0 first (20_memory.md R56). -/
  | write (addr : BusAddr) (m : Image)
  /-- The block waited at least `ms` milliseconds (00_scope.md R11). -/
  | settle (ms : Nat)
  /-- One read request of `count` bytes and the oracle's answer (20_memory.md R57). -/
  | read (addr : BusAddr) (count : Nat) (answer : ReadAnswer)
  deriving DecidableEq, Repr

end Sys2Proof
end

