-- ==== Sys2Proof/Config.lean ====
section
/-! DEFINITION. The implementation parameters of spec 00_scope.md R7 as one record with the spec's defaults, and the one
free value of the model: what the tuner chip answers on the bus (20_memory.md R55). -/

namespace Sys2Proof

/-- How the "round" of the PLL formula treats an exact half (40_codec.md R100; 93_implementation_defined.md I8). -/
inductive TieRule where
  | halfUp
  | halfEven
  | halfAway
  deriving DecidableEq, Repr

/-- The parameters of 00_scope.md R7, each with the value of the spec as its default. Every operation of the machine takes
this record; `exec` runs at `Machine.params`. The types of Word.lean are as wide as the default widths: a smaller width narrows
the values, and a larger one is not well formed (WellFormed.lean, log entry 5). -/
structure Config where
  /-- IMAGE_BYTES: the bytes of one image, and of one bus transaction. -/
  imageBytes : Nat := 5
  pllBits : Nat := 14
  ifcBits : Nat := 7
  adcBits : Nat := 4
  fRefHz : Int := 32768
  fIfHz : Int := 225000
  /-- PLL_STEP_HZ, by default F_REF_HZ / 4 (40_codec.md R101). -/
  pllStepHz : Int := fRefHz / 4
  probeOffsetHz : Int := 450000
  searchStepHz : Int := 100000
  ifLo : Nat := 52
  ifHi : Nat := 58
  thrNa : Nat := 0
  thrLow : Nat := 5
  thrMid : Nat := 7
  thrHigh : Nat := 10
  band0MinHz : Int := 87500000
  band0MaxHz : Int := 108000000
  /-- OPEN in the spec, from its general knowledge (92_eei_decisions.md D10). -/
  band1MinHz : Int := 76000000
  /-- OPEN in the spec, from its general knowledge (D10). -/
  band1MaxHz : Int := 91000000
  settleMs : Nat := 35
  chipSettleMs : Nat := 28
  readTimeoutMs : Nat := 20
  readAttempts : Nat := 5
  zeroAttempts : Nat := 5
  chipAddr : BusAddr := 0x60#7
  freqOperandBits : Nat := 27
  /-- OPEN in the spec: `none` is the default "unbounded" (D25). -/
  presetCap : Option Nat := none
  /-- The tie rule of "round" (I8); the default is round half up (D3). -/
  tie : TieRule := .halfUp
  deriving DecidableEq, Repr

/-- PLL_MAX = 2^PLL_BITS - 1 (00_scope.md R8). -/
def pllMax (k : Config) : Int := 2 ^ k.pllBits - 1

/-- THE FREE VALUE of the model (93_implementation_defined.md I3): the chip's answer to a bus read, which "may depend on the
whole event history, and nothing in this spec constrains it" (R55). It has no body, so nothing can be proved of its values.
A read takes it when the state's list `answers` is empty (log entry 2). -/
opaque Config.oracle : List BusEvent → ReadAnswer

end Sys2Proof
end

