-- ==== Sys2Proof/Syntax.lean ====
section
/-! DEFINITION. The commands of the block: one constructor per row of spec/opcode_table.json (30_encoding.md R82), with the
operand fields of the row's form (R81). Every field has exactly the width the form gives it, so every term of `Instr` is
well formed; what can be ill formed is a 32-bit word, a configuration or a state (WellFormed.lean, Safety.lean). -/

namespace Sys2Proof

/-- One command of the block. `f` is a frequency in Hz (form F), `v` a bit (form B), `lvl` a 3-bit level (form L); a search
step has the direction `up` (1 = UP), the level and the capture bit (form S); form N has no operand. -/
inductive Instr where
  | setFreq (f : Freq)
  | setMute (v : Bool)
  | setSearchMode (v : Bool)
  | setSearchDir (v : Bool)
  | setStopLevel (lvl : Level)
  | setInjection (v : Bool)
  | setMono (v : Bool)
  | setMuteRight (v : Bool)
  | setMuteLeft (v : Bool)
  | setSwp1 (v : Bool)
  | setSwp2 (v : Bool)
  | setStandby (v : Bool)
  | setBand (v : Bool)
  | setSoftMute (v : Bool)
  | setHighCut (v : Bool)
  | setNoiseCancel (v : Bool)
  | setSearchInd (v : Bool)
  | setDeemph (v : Bool)
  | flush
  | readRaw
  | readDecode
  | optimize (f : Freq)
  | setStation (f : Freq)
  | searchStep (up : Bool) (lvl : Level) (cap : Bool)
  | scanBegin (lvl : Level)
  | scanStep
  | presetNext
  | presetPrev
  | presetDelete
  deriving DecidableEq, Repr

/-- The operand forms of 30_encoding.md R81. -/
inductive Form where
  | F
  | B
  | L
  | S
  | N
  deriving DecidableEq, Repr

end Sys2Proof
end

