-- ==== Sys2Proof/WellFormed.lean ====
section
/-! DEFINITION. What makes a command word legal, by the match and mask table of 30_encoding.md R82 (a second writing of the
encoding, independent of Decode.lean), and what a configuration must satisfy for the rules to be read as the spec means
them. -/

namespace Sys2Proof

/-- One row of the opcode map (30_encoding.md R82). -/
structure OpRow where
  mnemonic : String
  form : Form
  matchWord : Word
  maskWord : Word
  deriving DecidableEq, Repr

/-- "A word w selects the row when `w AND mask = match`" (R82). -/
def OpRow.selects (r : OpRow) (w : Word) : Bool := w &&& r.maskWord == r.matchWord

/-- The opcode map, rows 0x01 to 0x09 (R82). -/
def opRows1 : List OpRow :=
  [⟨"SET_FREQ", .F, 0x08000000#32, 0xF8000000#32⟩,
   ⟨"SET_MUTE", .B, 0x10000000#32, 0xFFFFFFFE#32⟩,
   ⟨"SET_SEARCH_MODE", .B, 0x18000000#32, 0xFFFFFFFE#32⟩,
   ⟨"SET_SEARCH_DIR", .B, 0x20000000#32, 0xFFFFFFFE#32⟩,
   ⟨"SET_STOP_LEVEL", .L, 0x28000000#32, 0xFFFFFFF8#32⟩,
   ⟨"SET_INJECTION", .B, 0x30000000#32, 0xFFFFFFFE#32⟩,
   ⟨"SET_MONO", .B, 0x38000000#32, 0xFFFFFFFE#32⟩,
   ⟨"SET_MUTE_RIGHT", .B, 0x40000000#32, 0xFFFFFFFE#32⟩,
   ⟨"SET_MUTE_LEFT", .B, 0x48000000#32, 0xFFFFFFFE#32⟩]

/-- The opcode map, rows 0x0A to 0x12 (R82). -/
def opRows2 : List OpRow :=
  [⟨"SET_SWP1", .B, 0x50000000#32, 0xFFFFFFFE#32⟩,
   ⟨"SET_SWP2", .B, 0x58000000#32, 0xFFFFFFFE#32⟩,
   ⟨"SET_STANDBY", .B, 0x60000000#32, 0xFFFFFFFE#32⟩,
   ⟨"SET_BAND", .B, 0x68000000#32, 0xFFFFFFFE#32⟩,
   ⟨"SET_SOFT_MUTE", .B, 0x70000000#32, 0xFFFFFFFE#32⟩,
   ⟨"SET_HIGH_CUT", .B, 0x78000000#32, 0xFFFFFFFE#32⟩,
   ⟨"SET_NOISE_CANCEL", .B, 0x80000000#32, 0xFFFFFFFE#32⟩,
   ⟨"SET_SEARCH_IND", .B, 0x88000000#32, 0xFFFFFFFE#32⟩,
   ⟨"SET_DEEMPH", .B, 0x90000000#32, 0xFFFFFFFE#32⟩]

/-- The opcode map, rows 0x13 to 0x1D (R82). -/
def opRows3 : List OpRow :=
  [⟨"FLUSH", .N, 0x98000000#32, 0xFFFFFFFF#32⟩,
   ⟨"READ_RAW", .N, 0xA0000000#32, 0xFFFFFFFF#32⟩,
   ⟨"READ_DECODE", .N, 0xA8000000#32, 0xFFFFFFFF#32⟩,
   ⟨"OPTIMIZE", .F, 0xB0000000#32, 0xF8000000#32⟩,
   ⟨"SET_STATION", .F, 0xB8000000#32, 0xF8000000#32⟩,
   ⟨"SEARCH_STEP", .S, 0xC0000000#32, 0xFFFFFFE0#32⟩,
   ⟨"SCAN_BEGIN", .L, 0xC8000000#32, 0xFFFFFFF8#32⟩,
   ⟨"SCAN_STEP", .N, 0xD0000000#32, 0xFFFFFFFF#32⟩,
   ⟨"PRESET_NEXT", .N, 0xD8000000#32, 0xFFFFFFFF#32⟩,
   ⟨"PRESET_PREV", .N, 0xE0000000#32, 0xFFFFFFFF#32⟩,
   ⟨"PRESET_DELETE", .N, 0xE8000000#32, 0xFFFFFFFF#32⟩]

/-- The whole opcode map (R82). -/
def opRows : List OpRow := opRows1 ++ opRows2 ++ opRows3

/-- A command word is legal when it selects a row: its opcode is one of 0x01 to 0x1D (R83) and every bit its form requires
to be zero is zero (R84). -/
def Word.WellFormed (w : Word) : Bool := opRows.any (·.selects w)

/-- The bands are not empty, and both lie in the range that the 14-bit PLL word can tune with the probes (42_optimizer.md
R171: "Both bands lie well inside that range"). -/
def Config.bandsWellFormed (k : Config) : Bool :=
  decide (670904 ≤ k.band0MinHz) && decide (k.band0MinHz ≤ k.band0MaxHz) && decide (k.band0MaxHz ≤ 133538631) &&
  decide (670904 ≤ k.band1MinHz) && decide (k.band1MinHz ≤ k.band1MaxHz) && decide (k.band1MaxHz ≤ 133538631)

/-- The steps of the grid and of the PLL are positive, and the PLL step is F_REF_HZ / 4 (R7, R101). -/
def Config.stepsWellFormed (k : Config) : Bool :=
  decide (0 < k.searchStepHz) && decide (0 < k.pllStepHz) && decide (k.pllStepHz = k.fRefHz / 4)

/-- The widths fit the fields of the images and the registers of the block (30_encoding.md R70, R76, R81), and the registers
hold the band bounds. -/
def Config.widthsWellFormed (k : Config) : Bool :=
  decide (k.imageBytes = 5) && decide (k.pllBits ≤ 14) && decide (k.ifcBits ≤ 7) && decide (k.adcBits ≤ 4) &&
  decide (k.freqOperandBits ≤ 27) && decide (k.band0MaxHz.toNat < 2 ^ k.freqOperandBits) &&
  decide (k.band1MaxHz.toNat < 2 ^ k.freqOperandBits)

/-- Each retry loop makes at least one attempt (41_bus_status.md R151). -/
def Config.attemptsWellFormed (k : Config) : Bool :=
  decide (0 < k.readAttempts) && decide (0 < k.zeroAttempts)

/-- "The budget exceeds the chip's need" (70_reset_and_hazards.md R283). -/
def Config.settleWellFormed (k : Config) : Bool := decide (k.chipSettleMs ≤ k.settleMs)

/-- A configuration the rules can be read with. -/
def Config.WellFormed (k : Config) : Bool :=
  k.bandsWellFormed && k.stepsWellFormed && k.widthsWellFormed && k.attemptsWellFormed && k.settleWellFormed

end Sys2Proof
end

