-- ==== Sys2Proof/Decode.lean ====
section
/-! DEFINITION. The command decoder (30_encoding.md R80 to R85), total on every 32-bit word and rejecting by name, and the
encoder, both written from the fields of R80 and R81. -/

namespace Sys2Proof

/-- Why a word is no command (30_encoding.md R83, R84). -/
inductive DecodeError where
  /-- The opcode is 0x00, 0x1E or 0x1F (R83). -/
  | illegalOpcode (op : BitVec 5)
  /-- A bit that the opcode's form requires to be zero is set (R84). -/
  | mustBeZero (op : BitVec 5) (form : Form)
  deriving DecidableEq, Repr

/-- The opcode, bits 31:27 (R80). -/
def opField (w : Word) : BitVec 5 := w.extractLsb' 27 5

/-- Form F: `f = operand[26:0]` (R81). -/
def decodeF (w : Word) (c : Freq → Instr) : Except DecodeError Instr :=
  .ok (c (w.extractLsb' 0 27))

/-- Form B: `v = operand[0]`, `operand[26:1] = 0` (R81). -/
def decodeB (w : Word) (c : Bool → Instr) : Except DecodeError Instr :=
  if w.extractLsb' 1 26 = 0#26 then .ok (c (w.getLsbD 0)) else .error (.mustBeZero (opField w) .B)

/-- Form L: `lvl = operand[2:0]`, `operand[26:3] = 0` (R81). -/
def decodeL (w : Word) (c : Level → Instr) : Except DecodeError Instr :=
  if w.extractLsb' 3 24 = 0#24 then .ok (c (w.extractLsb' 0 3)) else .error (.mustBeZero (opField w) .L)

/-- Form S: `dir = operand[0]`, `lvl = operand[3:1]`, `cap = operand[4]`, `operand[26:5] = 0` (R81). -/
def decodeS (w : Word) (c : Bool → Level → Bool → Instr) : Except DecodeError Instr :=
  if w.extractLsb' 5 22 = 0#22 then .ok (c (w.getLsbD 0) (w.extractLsb' 1 3) (w.getLsbD 4))
  else .error (.mustBeZero (opField w) .S)

/-- Form N: `operand[26:0] = 0` (R81). -/
def decodeN (w : Word) (i : Instr) : Except DecodeError Instr :=
  if w.extractLsb' 0 27 = 0#27 then .ok i else .error (.mustBeZero (opField w) .N)

/-- `decodeCmd` of 30_encoding.md R85: the opcode picks the row of R82, the row's form its fields. -/
def decodeCmd (w : Word) : Except DecodeError Instr :=
  match (opField w).toNat with
  | 0x01 => decodeF w .setFreq
  | 0x02 => decodeB w .setMute
  | 0x03 => decodeB w .setSearchMode
  | 0x04 => decodeB w .setSearchDir
  | 0x05 => decodeL w .setStopLevel
  | 0x06 => decodeB w .setInjection
  | 0x07 => decodeB w .setMono
  | 0x08 => decodeB w .setMuteRight
  | 0x09 => decodeB w .setMuteLeft
  | 0x0A => decodeB w .setSwp1
  | 0x0B => decodeB w .setSwp2
  | 0x0C => decodeB w .setStandby
  | 0x0D => decodeB w .setBand
  | 0x0E => decodeB w .setSoftMute
  | 0x0F => decodeB w .setHighCut
  | 0x10 => decodeB w .setNoiseCancel
  | 0x11 => decodeB w .setSearchInd
  | 0x12 => decodeB w .setDeemph
  | 0x13 => decodeN w .flush
  | 0x14 => decodeN w .readRaw
  | 0x15 => decodeN w .readDecode
  | 0x16 => decodeF w .optimize
  | 0x17 => decodeF w .setStation
  | 0x18 => decodeS w .searchStep
  | 0x19 => decodeL w .scanBegin
  | 0x1A => decodeN w .scanStep
  | 0x1B => decodeN w .presetNext
  | 0x1C => decodeN w .presetPrev
  | 0x1D => decodeN w .presetDelete
  | _ => .error (.illegalOpcode (opField w))

/-- The opcode in bits 31:27, and an operand in bits 26:0 (R80). -/
def layOut (op : BitVec 5) (operand : Freq) : Word := op.setWidth 32 <<< 27 ||| operand.setWidth 32

/-- Form F: the frequency is the whole operand (R81). -/
def encodeF (op : BitVec 5) (f : Freq) : Word := layOut op f

/-- Form B: the bit is operand bit 0 (R81). -/
def encodeB (op : BitVec 5) (v : Bool) : Word := layOut op ((BitVec.ofBool v).setWidth 27)

/-- Form L: the level is operand bits 2:0 (R81). -/
def encodeL (op : BitVec 5) (lvl : Level) : Word := layOut op (lvl.setWidth 27)

/-- Form S: direction in operand bit 0, level in bits 3:1, capture in bit 4 (R81). -/
def encodeS (op : BitVec 5) (up : Bool) (lvl : Level) (cap : Bool) : Word :=
  layOut op ((BitVec.ofBool cap).setWidth 27 <<< 4 ||| lvl.setWidth 27 <<< 1 ||| (BitVec.ofBool up).setWidth 27)

/-- Form N: no operand (R81). -/
def encodeN (op : BitVec 5) : Word := layOut op 0#27

/-- The word of a command (30_encoding.md R80 to R82). -/
def encode : Instr → Word
  | .setFreq f => encodeF 0x01#5 f
  | .setMute v => encodeB 0x02#5 v
  | .setSearchMode v => encodeB 0x03#5 v
  | .setSearchDir v => encodeB 0x04#5 v
  | .setStopLevel lvl => encodeL 0x05#5 lvl
  | .setInjection v => encodeB 0x06#5 v
  | .setMono v => encodeB 0x07#5 v
  | .setMuteRight v => encodeB 0x08#5 v
  | .setMuteLeft v => encodeB 0x09#5 v
  | .setSwp1 v => encodeB 0x0A#5 v
  | .setSwp2 v => encodeB 0x0B#5 v
  | .setStandby v => encodeB 0x0C#5 v
  | .setBand v => encodeB 0x0D#5 v
  | .setSoftMute v => encodeB 0x0E#5 v
  | .setHighCut v => encodeB 0x0F#5 v
  | .setNoiseCancel v => encodeB 0x10#5 v
  | .setSearchInd v => encodeB 0x11#5 v
  | .setDeemph v => encodeB 0x12#5 v
  | .flush => encodeN 0x13#5
  | .readRaw => encodeN 0x14#5
  | .readDecode => encodeN 0x15#5
  | .optimize f => encodeF 0x16#5 f
  | .setStation f => encodeF 0x17#5 f
  | .searchStep up lvl cap => encodeS 0x18#5 up lvl cap
  | .scanBegin lvl => encodeL 0x19#5 lvl
  | .scanStep => encodeN 0x1A#5
  | .presetNext => encodeN 0x1B#5
  | .presetPrev => encodeN 0x1C#5
  | .presetDelete => encodeN 0x1D#5

/-- The mnemonic of a command, as spec/opcode_table.json spells it (30_encoding.md R82). -/
def mnemonic : Instr → String
  | .setFreq _ => "SET_FREQ"
  | .setMute _ => "SET_MUTE"
  | .setSearchMode _ => "SET_SEARCH_MODE"
  | .setSearchDir _ => "SET_SEARCH_DIR"
  | .setStopLevel _ => "SET_STOP_LEVEL"
  | .setInjection _ => "SET_INJECTION"
  | .setMono _ => "SET_MONO"
  | .setMuteRight _ => "SET_MUTE_RIGHT"
  | .setMuteLeft _ => "SET_MUTE_LEFT"
  | .setSwp1 _ => "SET_SWP1"
  | .setSwp2 _ => "SET_SWP2"
  | .setStandby _ => "SET_STANDBY"
  | .setBand _ => "SET_BAND"
  | .setSoftMute _ => "SET_SOFT_MUTE"
  | .setHighCut _ => "SET_HIGH_CUT"
  | .setNoiseCancel _ => "SET_NOISE_CANCEL"
  | .setSearchInd _ => "SET_SEARCH_IND"
  | .setDeemph _ => "SET_DEEMPH"
  | .flush => "FLUSH"
  | .readRaw => "READ_RAW"
  | .readDecode => "READ_DECODE"
  | .optimize _ => "OPTIMIZE"
  | .setStation _ => "SET_STATION"
  | .searchStep _ _ _ => "SEARCH_STEP"
  | .scanBegin _ => "SCAN_BEGIN"
  | .scanStep => "SCAN_STEP"
  | .presetNext => "PRESET_NEXT"
  | .presetPrev => "PRESET_PREV"
  | .presetDelete => "PRESET_DELETE"

/-- The command the decoder reads from a table word: a command word is one 32-bit word with no further words (R80), so the
table's bits are the word itself. -/
def decodeTableWord (nbits w : Nat) : Option Instr :=
  if nbits ≤ 32 then (decodeCmd (BitVec.ofNat 32 w)).toOption else none

end Sys2Proof
end

