-- ==== Sys2Proof/Machine/Params.lean ====
section
/-! DEFINITION. The parameters the machine runs with, and a frequency as a register of FREQ_OPERAND_BITS holds it. -/

namespace Sys2Proof.Machine

/-- The parameters the machine runs with: the defaults of 00_scope.md R7. -/
def params : Config := {}

/-- A frequency in Hz as the probe register and the preset list hold it: FREQ_OPERAND_BITS bits, unsigned (10_state.md R37,
R39; 00_scope.md R7). The callers hold a value that fits. -/
def freqReg (k : Config) (f : Int) : Freq := (BitVec.ofInt k.freqOperandBits f).setWidth 27

end Sys2Proof.Machine
end

