-- ==== Sys2Proof/Machine/State.lean ====
section
/-! DEFINITION. The architectural state of the block (10_state.md R20 to R44) as plain data, with the two environment
inputs the step reads (the host's command stream and the lined-up oracle answers), and the state after reset
(70_reset_and_hazards.md R270, R271). -/

namespace Sys2Proof.Machine

/-- The status register `S` (10_state.md R25 to R33): the stored fields. The configuration fields of the source's Status are
views of the write image (R34). -/
structure Status where
  /-- 1 once a decode has updated the status (R26). -/
  valid : Bool
  /-- The chip's ready flag (R27). -/
  ready : Bool
  /-- The chip's band-limit flag (R28). -/
  blf : Bool
  /-- The chip's radio-mode flag (R29). -/
  stereo : Bool
  /-- The IF counter (R30). -/
  ifc : Ifc
  /-- The ADC level (R31). -/
  adc : Adc
  /-- 1 when the last read attempt timed out (R32). -/
  readTimeout : Bool
  /-- The decoded frequency in Hz, a signed 32-bit integer (R33). -/
  freq : BitVec 32
  deriving DecidableEq, Repr

/-- The state of the block (10_state.md R20), the bus event history (R44) and the block's inputs. -/
structure State where
  /-- The write image `W` (R21). -/
  w : Image
  /-- The read image `Rd` (R23). -/
  rd : Image
  /-- 1 once a read transaction has succeeded (R24). -/
  rdValid : Bool
  /-- The status register `S` (R25). -/
  st : Status
  /-- The search probe register `P` (R37). -/
  p : Freq
  /-- A band scan has been begun and has steps left (R38). -/
  scanActive : Bool
  /-- The index of the next scan frequency (R38). -/
  scanIdx : BitVec 16
  /-- The stop-level code the scan tests against (R38). -/
  scanCode : StopCode
  /-- The preset list `L` (R39). -/
  l : List Freq
  /-- The preset cursor `C` (R40). -/
  c : Nat
  /-- The result code of the last command (R41, 60_exceptions.md R241). -/
  res : BitVec 4
  /-- The side OPTIMIZE chose, 1 = HIGH (R41). -/
  resSide : Bool
  /-- Every bus event so far, oldest first (R44): a record, read by no rule of the block. -/
  events : List BusEvent
  /-- The model's own field (log entry 2): oracle answers lined up for the next reads; when it is empty a read takes the
  free value `Config.oracle` of the history. -/
  answers : List ReadAnswer
  /-- The model's own field (log entry 1): the command words the host has still to present, the first at the port. -/
  port : List Word
  deriving DecidableEq, Repr

/-- The two situations that 60_exceptions.md R256 asks to record as faults of a step. `step` and `exec` never answer one:
they give the effect of R244 and R245. `Safety.strictStep` answers them (log entry 3). -/
inductive Fault where
  /-- Raised by `Safety.strictStep` when a command ends in RANGE_FAULT (R244): safe, no claim can rest on it. -/
  | rangeFault
  /-- Raised by `Safety.strictStep` when the word at the port is illegal (R245): safe, no claim can rest on it. -/
  | illegal
  deriving DecidableEq, Repr

/-- Why a step has no meaning. No arm of `exec` and no meaning answers one. -/
inductive Refusal where
  /-- Reserved for an arm of `exec` whose instruction has no meaning yet; no arm raises it: safe. -/
  | notModelled (mnemonic : String)
  deriving DecidableEq, Repr

/-- The status register after reset: "every stored status field is 0" (92_eei_decisions.md D12). -/
def Status.reset : Status where
  valid := false
  ready := false
  blf := false
  stereo := false
  ifc := 0#7
  adc := 0#4
  readTimeout := false
  freq := 0#32

/-- The state after reset under the parameters `k` (70_reset_and_hazards.md R271): P is BAND0_MIN_HZ; no bus event, nothing at
the host port (log entry 1), no answer lined up (log entry 2). -/
def State.resetWith (k : Config) : State where
  w := ⟨0x00#8, 0x00#8, 0x00#8, 0x10#8, 0x00#8⟩
  rd := ⟨0x00#8, 0x00#8, 0x00#8, 0x00#8, 0x00#8⟩
  rdValid := false
  st := Status.reset
  p := freqReg k k.band0MinHz
  scanActive := false
  scanIdx := 0#16
  scanCode := 0#2
  l := []
  c := 0
  res := 0#4
  resSide := false
  events := []
  answers := []
  port := []

/-- The state after reset (R271). -/
def State.reset : State := State.resetWith params

end Sys2Proof.Machine
end

