-- ==== Sys2Proof/Machine/Operands.lean ====
section
/-! DEFINITION. The pure functions over operands and images: bit fields, the write-image layout (30_encoding.md R70 to R75),
the read-image extraction (R76), stop levels (R77, R78), bands and sides (10_state.md R35, R36), and the frequency codec
(40_codec.md R100 to R103). Every function of a parameter takes the configuration `k`. -/

namespace Sys2Proof.Machine

/-! ## Bit fields (00_scope.md R9, R11) -/

/-- `v[hi:lo]` with `n = hi - lo + 1` bits. -/
def getField (b : Byte) (lo n : Nat) : BitVec n := b.extractLsb' lo n

/-- `W[i][hi:lo] <- v`: the field of `n` bits from bit `lo` is replaced, every other bit of the byte is kept. -/
def putField (b : Byte) (lo : Nat) {n : Nat} (v : BitVec n) : Byte :=
  (b &&& ~~~((BitVec.allOnes n).setWidth 8 <<< lo)) ||| (v.setWidth 8 <<< lo)

/-- `W[i][bit] <- v` for one bit. -/
def putBit (b : Byte) (bit : Nat) (v : Bool) : Byte := putField b bit (BitVec.ofBool v)

/-! ## The write image: views (10_state.md R34, 30_encoding.md R70) -/

/-- MUTE, `W[0][7]`: the master mute flag. -/
def mute (w : Image) : Bool := w.b0.getLsbD 7
/-- SM, `W[0][6]`: the search-mode bit. -/
def searchMode (w : Image) : Bool := w.b0.getLsbD 6
/-- The PLL word of an image: bits 13:8 in byte 0 bits 5:0, bits 7:0 in byte 1, in both images (20_memory.md R53). -/
def pllWord (m : Image) : Pll := m.b0.extractLsb' 0 6 ++ m.b1
/-- SUD, `W[2][7]`: the last search direction, 1 = UP. -/
def searchUp (w : Image) : Bool := w.b2.getLsbD 7
/-- SSL, `W[2][6:5]`: the stop-level code. -/
def stopCode (w : Image) : StopCode := getField w.b2 5 2
/-- HLSI, `W[2][4]`: 1 = HIGH side. -/
def injection (w : Image) : Bool := w.b2.getLsbD 4
/-- MS, `W[2][3]`. -/
def mono (w : Image) : Bool := w.b2.getLsbD 3
/-- MR, `W[2][2]`. -/
def muteRight (w : Image) : Bool := w.b2.getLsbD 2
/-- ML, `W[2][1]`. -/
def muteLeft (w : Image) : Bool := w.b2.getLsbD 1
/-- SWP1, `W[2][0]`. -/
def swp1 (w : Image) : Bool := w.b2.getLsbD 0
/-- SWP2, `W[3][7]`. -/
def swp2 (w : Image) : Bool := w.b3.getLsbD 7
/-- STBY, `W[3][6]`. -/
def standby (w : Image) : Bool := w.b3.getLsbD 6
/-- BL, `W[3][5]`: 0 = band 0, 1 = band 1. -/
def band (w : Image) : Bool := w.b3.getLsbD 5
/-- XTAL, `W[3][4]`: the constant 1 (R22). -/
def xtal (w : Image) : Bool := w.b3.getLsbD 4
/-- SMUTE, `W[3][3]`. -/
def softMute (w : Image) : Bool := w.b3.getLsbD 3
/-- HCC, `W[3][2]`. -/
def highCut (w : Image) : Bool := w.b3.getLsbD 2
/-- SNC, `W[3][1]`. -/
def noiseCancel (w : Image) : Bool := w.b3.getLsbD 1
/-- SI, `W[3][0]`. -/
def searchInd (w : Image) : Bool := w.b3.getLsbD 0
/-- PLLREF, `W[4][7]`: the constant 0 (R22). -/
def pllRef (w : Image) : Bool := w.b4.getLsbD 7
/-- DTC, `W[4][6]`. -/
def deemph (w : Image) : Bool := w.b4.getLsbD 6

/-! ## The write image: field writes (30_encoding.md R70) -/

def putMute (w : Image) (v : Bool) : Image := { w with b0 := putBit w.b0 7 v }
def putSearchMode (w : Image) (v : Bool) : Image := { w with b0 := putBit w.b0 6 v }
/-- `W[0][5:0] <- p[13:8]; W[1] <- p[7:0]` (40_codec.md R105). -/
def putPll (w : Image) (p : Pll) : Image :=
  { w with b0 := putField w.b0 0 (p.extractLsb' 8 6), b1 := p.extractLsb' 0 8 }
def putSearchUp (w : Image) (v : Bool) : Image := { w with b2 := putBit w.b2 7 v }
def putStopCode (w : Image) (c : StopCode) : Image := { w with b2 := putField w.b2 5 c }
def putInjection (w : Image) (v : Bool) : Image := { w with b2 := putBit w.b2 4 v }
def putMono (w : Image) (v : Bool) : Image := { w with b2 := putBit w.b2 3 v }
def putMuteRight (w : Image) (v : Bool) : Image := { w with b2 := putBit w.b2 2 v }
def putMuteLeft (w : Image) (v : Bool) : Image := { w with b2 := putBit w.b2 1 v }
def putSwp1 (w : Image) (v : Bool) : Image := { w with b2 := putBit w.b2 0 v }
def putSwp2 (w : Image) (v : Bool) : Image := { w with b3 := putBit w.b3 7 v }
def putStandby (w : Image) (v : Bool) : Image := { w with b3 := putBit w.b3 6 v }
def putBand (w : Image) (v : Bool) : Image := { w with b3 := putBit w.b3 5 v }
def putSoftMute (w : Image) (v : Bool) : Image := { w with b3 := putBit w.b3 3 v }
def putHighCut (w : Image) (v : Bool) : Image := { w with b3 := putBit w.b3 2 v }
def putNoiseCancel (w : Image) (v : Bool) : Image := { w with b3 := putBit w.b3 1 v }
def putSearchInd (w : Image) (v : Bool) : Image := { w with b3 := putBit w.b3 0 v }
def putDeemph (w : Image) (v : Bool) : Image := { w with b4 := putBit w.b4 6 v }

/-! ## The read image (30_encoding.md R76) -/

/-- `rdReady(Rd) = Rd[0][7]`. -/
def rdReady (m : Image) : Bool := m.b0.getLsbD 7
/-- `rdBlf(Rd) = Rd[0][6]`. -/
def rdBlf (m : Image) : Bool := m.b0.getLsbD 6
/-- `rdPll(Rd) = Rd[0][5:0] × 256 + Rd[1]`, of PLL_BITS bits. -/
def rdPll (k : Config) (m : Image) : Pll := ((pllWord m).setWidth k.pllBits).setWidth 14
/-- `rdStereo(Rd) = Rd[2][7]`. -/
def rdStereo (m : Image) : Bool := m.b2.getLsbD 7
/-- `rdIfc(Rd) = Rd[2][6:0]`: the low IFC_BITS bits of byte 2. -/
def rdIfc (k : Config) (m : Image) : Ifc := (getField m.b2 0 k.ifcBits).setWidth 7
/-- `rdAdc(Rd) = Rd[3][7:4]`: the top ADC_BITS bits of byte 3. -/
def rdAdc (k : Config) (m : Image) : Adc := (getField m.b3 (8 - k.adcBits) k.adcBits).setWidth 4

/-! ## Levels, sides and bands -/

/-- `code(lvl)`: 0 to 3 map to themselves, an unrecognised level to 3, HIGH (30_encoding.md R78). -/
def levelCode (lvl : Level) : StopCode := if lvl.toNat ≤ 3 then lvl.setWidth 2 else 3#2

/-- `thr(c)`: the ADC threshold of a stop-level code (43_search_fsm.md R184). -/
def threshold (k : Config) (c : StopCode) : Nat :=
  match c.toNat with
  | 0 => k.thrNa
  | 1 => k.thrLow
  | 2 => k.thrMid
  | _ => k.thrHigh

/-- `side(W)`: the injection side in effect (10_state.md R36). -/
def side (w : Image) : Side := if injection w then .high else .low

/-- The HLSI bit of a side (R36). -/
def sideBit : Side → Bool
  | .high => true
  | .low => false

/-- The bounds of a band, `b = 1` for band 1 (R35). -/
def bandBounds (k : Config) (b : Bool) : Int × Int :=
  if b then (k.band1MinHz, k.band1MaxHz) else (k.band0MinHz, k.band0MaxHz)

/-- `bounds(W) = (minF, maxF)` (R35). -/
def bounds (k : Config) (w : Image) : Int × Int := bandBounds k (band w)

/-- `SCAN_COUNT(band)` (00_scope.md R8). -/
def scanCount (k : Config) (b : Bool) : Int :=
  ((bandBounds k b).2 - (bandBounds k b).1) / k.searchStepHz + 1

/-! ## Frequency and PLL word (40_codec.md) -/

/-- `sgn(side)` (R100). -/
def sgn : Side → Int
  | .high => 1
  | .low => -1

/-- Rounded division under the configured tie rule; half up is `floor((x + d/2) / d)` (R100, I8). -/
def roundDiv (t : TieRule) (x d : Int) : Int :=
  match t with
  | .halfUp => (x + d / 2) / d
  | .halfEven =>
    if 2 * (x % d) < d then x / d
    else if d < 2 * (x % d) then x / d + 1
    else if x / d % 2 = 0 then x / d else x / d + 1
  | .halfAway => if 0 ≤ x then (x + d / 2) / d else -((-x + d / 2) / d)

/-- `pllRaw(f, side)`: the unbounded PLL value (R100). -/
def pllRaw (k : Config) (f : Int) (s : Side) : Int := roundDiv k.tie (f + sgn s * k.fIfHz) k.pllStepHz

/-- `pllOK(f, side)`: the PLL value fits the 14-bit field (R102). -/
abbrev pllOK (k : Config) (f : Int) (s : Side) : Prop := 0 ≤ pllRaw k f s ∧ pllRaw k f s ≤ pllMax k

/-- The PLL word for a frequency; the callers have checked `pllOK` (R105). -/
def pllFor (k : Config) (f : Int) (s : Side) : Pll := BitVec.ofInt 14 (pllRaw k f s)

/-- `freqOf(pll, side)` in Hz, a signed integer (R103, 90_conflicts.md C1). -/
def freqOf (k : Config) (p : Pll) (s : Side) : Int := (p.toNat : Int) * k.pllStepHz - sgn s * k.fIfHz

/-- `tunable(f)`: every PLL word that the optimizer and a following commit can write fits (42_optimizer.md R171). -/
abbrev tunable (k : Config) (f : Int) : Prop :=
  pllOK k (f + k.probeOffsetHz) .high ∧ pllOK k (f - k.probeOffsetHz) .low ∧ pllOK k f .high ∧ pllOK k f .low

end Sys2Proof.Machine
end

