-- ==== Sys2Proof/Machine/Flags.lean ====
section
/-! DEFINITION. The result codes (60_exceptions.md R241), the status a frame decodes to (41_bus_status.md R146), and the
block's two decisions over status fields: the side choice (42_optimizer.md R174) and the acceptance test
(43_search_fsm.md R183). -/

namespace Sys2Proof.Machine

/-- The result codes by name (60_exceptions.md R241). -/
inductive Result where
  | ok
  | timeout
  | notReady
  | commError
  | pending
  | stop
  | complete
  | scanMore
  | scanDone
  | scanIdle
  | empty
  | rangeFault
  | illegal
  | presetFull
  deriving DecidableEq, Repr

/-- The 4-bit number of a result code (R241); 14 and 15 are "never written". -/
def resultCode : Result → BitVec 4
  | .ok => 0#4
  | .timeout => 1#4
  | .notReady => 2#4
  | .commError => 3#4
  | .pending => 4#4
  | .stop => 5#4
  | .complete => 6#4
  | .scanMore => 7#4
  | .scanDone => 8#4
  | .scanIdle => 9#4
  | .empty => 10#4
  | .rangeFault => 11#4
  | .illegal => 12#4
  | .presetFull => 13#4

/-- How a `readAndDecode` ends (41_bus_status.md R151). -/
inductive ReadResult where
  | ok
  | notReady
  | commError
  deriving DecidableEq, Repr

/-- The result code of a `readAndDecode` (R152). -/
def readResult : ReadResult → Result
  | .ok => .ok
  | .notReady => .notReady
  | .commError => .commError

/-- The status after a settled frame: every field but readTimeout is replaced (41_bus_status.md R146, R149). -/
def decodedStatus (k : Config) (s : Side) (m : Image) (old : Status) : Status where
  valid := true
  ready := rdReady m
  blf := rdBlf m
  stereo := rdStereo m
  ifc := rdIfc k m
  adc := rdAdc k m
  readTimeout := old.readTimeout
  freq := BitVec.ofInt 32 (freqOf k (rdPll k m) s)

/-- `choose(Lh, Ll) = HIGH if Lh < Ll, else LOW`, unsigned (42_optimizer.md R174). -/
def choose (lh ll : Adc) : Side := if lh.toNat < ll.toNat then .high else .low

/-- `accept(ifc, adc, c)` (43_search_fsm.md R183). -/
abbrev accept (k : Config) (ifc : Ifc) (adc : Adc) (c : StopCode) : Prop :=
  k.ifLo ≤ ifc.toNat ∧ ifc.toNat ≤ k.ifHi ∧ threshold k c ≤ adc.toNat

end Sys2Proof.Machine
end

