-- ==== Sys2Proof/Machine/Ops.lean ====
section
/-! DEFINITION. The named operations over the state: the ports, ending a command, the two raises of 00_scope.md R11, and the
procedures that several commands share, each written from its own rule. The block has no trap: "raise" is the shared
operation that ends a command with RANGE_FAULT or ILLEGAL and nothing else (60_exceptions.md R244, R245, R249). -/

namespace Sys2Proof.Machine

/-- The answer of one command. -/
abbrev Answer := Host.Outcome State Fault Refusal

/-! ## Ending a command -/

/-- `finish c`: the state with result code `c` (00_scope.md R11). -/
def finish (r : Result) (s : State) : State := { s with res := resultCode r }

/-- `raise RangeFault()`: the command ends with RANGE_FAULT and leaves everything else (00_scope.md R11,
60_exceptions.md R244). -/
def raiseRangeFault (s : State) : Answer := .next (finish .rangeFault s)

/-- `raise Illegal()`: the word ends with ILLEGAL and leaves everything else (60_exceptions.md R245). -/
def raiseIllegal (s : State) : Answer := .next (finish .illegal s)

/-- The end of a setter: the new write image, result OK, nothing else (40_codec.md R106). -/
def finishSetter (w : Image) (s : State) : Answer := .next (finish .ok { s with w := w })

/-! ## The host port (30_encoding.md R80) -/

/-- The host presents a word: it stands first at the port. -/
def presentWord (w : Word) (s : State) : State := { s with port := w :: s.port }

/-- The block accepts the word at the port, which it does not store (R80). -/
def acceptWord (s : State) : Option (Word × State) :=
  match s.port with
  | [] => none
  | w :: rest => some (w, { s with port := rest })

/-! ## The bus port (20_memory.md R54 to R57, 10_state.md R44) -/

/-- Records one bus event. -/
def emit (e : BusEvent) (s : State) : State := { s with events := s.events ++ [e] }

/-- `BusWrite(CHIP_ADDR, W[0..4])`: one transaction of the whole write image (20_memory.md R56). -/
def busWrite (k : Config) (s : State) : State := emit (.write k.chipAddr s.w) s

/-- `Settle(SETTLE_MS)` (00_scope.md R11). -/
def settle (k : Config) (s : State) : State := emit (.settle k.settleMs) s

/-- The oracle's answer to the next read (20_memory.md R55): the first answer lined up, or the free value of the history. -/
def nextAnswer (s : State) : ReadAnswer :=
  match s.answers with
  | [] => Config.oracle s.events
  | a :: _ => a

/-- The state once `BusRead(CHIP_ADDR, 5)` has been answered: the answer is used up and the event recorded. -/
def busRead (k : Config) (s : State) : State :=
  emit (.read k.chipAddr k.imageBytes (nextAnswer s)) { s with answers := s.answers.tail }

/-! ## Bus transactions (41_bus_status.md) -/

/-- `flush()` (R140). -/
def flush (k : Config) (s : State) : State := settle k (busWrite k s)

/-- The state after a read attempt that was answered with a frame (R142). -/
def takeFrame (m : Image) (s : State) : State :=
  { s with rd := m, rdValid := true, st := { s.st with readTimeout := false } }

/-- The state after a read attempt that timed out (R142): Rd is unchanged. -/
def takeTimeout (s : State) : State := { s with st := { s.st with readTimeout := true } }

/-- `readRaw()`: one attempt, true for Ok (R142). -/
def readRaw (k : Config) (s : State) : Bool × State :=
  match nextAnswer s with
  | .timeout => (false, takeTimeout (busRead k s))
  | .bytes m => (true, takeFrame m (busRead k s))

/-- `decode()`: true for Updated; a zero PLL word writes nothing (R146, R147). -/
def decodeStatus (k : Config) (s : State) : Bool × State :=
  if rdPll k s.rd = 0#14 then (false, s)
  else (true, { s with st := decodedStatus k (side s.w) s.rd s.st })

/-- The timeout guard of `readAndDecode`: at most `n` attempts, false when all time out (R151). -/
def readGuard (k : Config) : Nat → State → Bool × State
  | 0, s => (false, s)
  | n + 1, s =>
    match readRaw k s with
    | (true, t) => (true, t)
    | (false, t) => readGuard k n t

/-- The PLL-zero guard of `readAndDecode`: at most `n` settled attempts, each with its own timeout guard (R151). -/
def zeroGuard (k : Config) : Nat → State → ReadResult × State
  | 0, s => (.notReady, s)
  | n + 1, s =>
    match readGuard k k.readAttempts s with
    | (false, t) => (.commError, t)
    | (true, t) =>
      match decodeStatus k t with
      | (true, u) => (.ok, u)
      | (false, u) => zeroGuard k n u

/-- `readAndDecode()` (R151; 90_conflicts.md C8, C10). -/
def readAndDecode (k : Config) (s : State) : ReadResult × State := zeroGuard k k.zeroAttempts s

/-! ## Tuning (40_codec.md, 43_search_fsm.md) -/

/-- `tune(f)`: the PLL word for `f` under the side now in W (40_codec.md R105). -/
def tune (k : Config) (f : Int) (s : State) : State := { s with w := putPll s.w (pllFor k f (side s.w)) }

/-- `commit(f, side)`: the side first, then the PLL word under it (43_search_fsm.md R182). -/
def commit (k : Config) (f : Int) (sd : Side) (s : State) : State :=
  tune k f { s with w := putInjection s.w (sideBit sd) }

/-- `retuneFast(f)` (44_presets.md R224). -/
def retuneFast (k : Config) (f : Int) (s : State) : State := flush k (tune k f s)

/-! ## The optimizer (42_optimizer.md) -/

/-- Commit a side and a frequency, flush, read and decode: one probe of the optimizer (R170), and the tune of a station under
the side it chose (43_search_fsm.md R185). -/
def tuneAndRead (k : Config) (f : Int) (sd : Side) (s : State) : ReadResult × State :=
  readAndDecode k (flush k (commit k f sd s))

/-- `optimize(f)`: `none` is COMM_ERROR. The level of a probe is `S.adc` as it stands after it, stale after NOT_READY
(R170, R172). -/
def optimize (k : Config) (f : Int) (s : State) : Option Side × State :=
  match tuneAndRead k (f + k.probeOffsetHz) .high s with
  | (.commError, t) => (none, t)
  | (_, t) =>
    match tuneAndRead k (f - k.probeOffsetHz) .low t with
    | (.commError, u) => (none, u)
    | (_, u) => (some (choose t.st.adc u.st.adc), u)

/-- The optimizer, then commit, flush, read and decode: the tune that SET_STATION, SEARCH_STEP and SCAN_STEP share
(43_search_fsm.md R185, R187, R196). -/
def optimizedTune (k : Config) (f : Int) (s : State) : ReadResult × State :=
  match optimize k f s with
  | (none, t) => (.commError, t)
  | (some sd, t) => tuneAndRead k f sd t

/-- `setStation(f)`: unmute, clear search mode, then the optimized tune (43_search_fsm.md R185). -/
def setStation (k : Config) (f : Int) (s : State) : ReadResult × State :=
  optimizedTune k f { s with w := putSearchMode (putMute s.w false) false }

/-! ## Presets (44_presets.md R220, R226) -/

/-- `append(f)`: `none` when a finite PRESET_CAP is reached; the list is then unchanged (R226). -/
def appendPreset (k : Config) (f : Freq) (s : State) : Option State :=
  if k.presetCap = some s.l.length then none else some { s with l := s.l ++ [f] }

/-- `clear()` (R220). -/
def clearPresets (s : State) : State := { s with l := [] }

/-- `L with remove(i)` (R220); an index past the end removes nothing (log entry 13). -/
def removePreset (i : Nat) (l : List Freq) : List Freq := l.eraseIdx i

/-- `L[i]`; the callers read an index below the length (R220). -/
def presetAt (l : List Freq) (i : Nat) : Freq := l.getD i 0#27

end Sys2Proof.Machine
end

