-- ==== Sys2Proof/Machine/Bus.lean ====
section
/-! DEFINITION. The bus commands FLUSH, READ_RAW and READ_DECODE (41_bus_status.md R141, R143, R152) and the optimizer command
OPTIMIZE (42_optimizer.md R173). -/

namespace Sys2Proof.Machine

/-- FLUSH (R141) under the parameters `k`. -/
def flushWith (k : Config) (s : State) : Answer := .next (finish .ok (flush k s))

/-- FLUSH (R141). -/
def execFlush (s : State) : Answer := flushWith params s

/-- READ_RAW (R143) under the parameters `k`: one attempt, never decoded. -/
def readRawWith (k : Config) (s : State) : Answer :=
  .next <| match readRaw k s with
    | (true, t) => finish .ok t
    | (false, t) => finish .timeout t

/-- READ_RAW (R143). -/
def execReadRaw (s : State) : Answer := readRawWith params s

/-- READ_DECODE (R152) under the parameters `k`. -/
def readDecodeWith (k : Config) (s : State) : Answer :=
  .next (finish (readResult (readAndDecode k s).1) (readAndDecode k s).2)

/-- READ_DECODE (R152). -/
def execReadDecode (s : State) : Answer := readDecodeWith params s

/-- OPTIMIZE f (42_optimizer.md R173) under the parameters `k`: it chooses and does not commit. -/
def optimizeWith (k : Config) (f : Freq) (s : State) : Answer :=
  if tunable k f.toNat then
    .next <| match optimize k f.toNat s with
      | (none, t) => finish .commError t
      | (some sd, t) => finish .ok { t with resSide := sideBit sd }
  else raiseRangeFault s

/-- OPTIMIZE f (R173). -/
def execOptimize (f : Freq) (s : State) : Answer := optimizeWith params f s

end Sys2Proof.Machine
end

