-- ==== Sys2Proof/Machine/Presets.lean ====
section
/-! DEFINITION. The preset commands PRESET_NEXT, PRESET_PREV and PRESET_DELETE (44_presets.md R221 to R223). -/

namespace Sys2Proof.Machine

/-- Moving the cursor to index `n` and re-tuning there without the optimizer, under the side now in W (R221, R222, R224). -/
def gotoPreset (k : Config) (n : Nat) (s : State) : Answer :=
  if pllOK k (presetAt s.l n).toNat (side s.w) then
    .next (finish .ok (retuneFast k (presetAt s.l n).toNat { s with c := n }))
  else raiseRangeFault s

/-- PRESET_NEXT (R221) under the parameters `k`. -/
def presetNextWith (k : Config) (s : State) : Answer :=
  if s.l.length = 0 then .next (finish .empty s) else gotoPreset k ((s.c + 1) % s.l.length) s

/-- PRESET_NEXT (R221). -/
def execPresetNext (s : State) : Answer := presetNextWith params s

/-- PRESET_PREV (R222) under the parameters `k`. -/
def presetPrevWith (k : Config) (s : State) : Answer :=
  if s.l.length = 0 then .next (finish .empty s) else gotoPreset k ((s.c + s.l.length - 1) % s.l.length) s

/-- PRESET_PREV (R222). -/
def execPresetPrev (s : State) : Answer := presetPrevWith params s

/-- The cursor after a deletion that leaves `n` entries: clamped to the last index (R223, 90_conflicts.md C5). -/
def clampCursor (c n : Nat) : Nat := if c < n then c else n - 1

/-- The full re-tune that ends a deletion (R223): setStation at the entry now under the cursor. -/
def retuneCurrent (k : Config) (s : State) : State :=
  finish (readResult (setStation k (presetAt s.l s.c).toNat s).1) (setStation k (presetAt s.l s.c).toNat s).2

/-- PRESET_DELETE (R223) under the parameters `k`: the range is checked before anything changes. -/
def presetDeleteWith (k : Config) (s : State) : Answer :=
  if s.l.length = 0 then .next (finish .empty s)
  else
    let rest := removePreset s.c s.l
    let cur := clampCursor s.c rest.length
    if rest.length = 0 then .next (finish .ok { s with l := rest, c := 0 })
    else if tunable k (presetAt rest cur).toNat then .next (retuneCurrent k { s with l := rest, c := cur })
    else raiseRangeFault s

/-- PRESET_DELETE (R223). -/
def execPresetDelete (s : State) : Answer := presetDeleteWith params s

end Sys2Proof.Machine
end

