-- ==== Sys2Proof/Machine/Search.lean ====
section
/-! DEFINITION. The tuning and band-search commands SET_STATION, SEARCH_STEP, SCAN_BEGIN and SCAN_STEP
(43_search_fsm.md R186, R187, R195, R196). -/

namespace Sys2Proof.Machine

/-- SET_STATION f (R186) under the parameters `k`. -/
def setStationWith (k : Config) (f : Freq) (s : State) : Answer :=
  if tunable k f.toNat then
    .next (finish (readResult (setStation k f.toNat s).1) (setStation k f.toNat s).2)
  else raiseRangeFault s

/-- SET_STATION f (R186). -/
def execSetStation (f : Freq) (s : State) : Answer := setStationWith params f s

/-- The direction and stop level of a search or scan, recorded in the write image (R187, R195; 92_eei_decisions.md D16,
D39). -/
def recordSearch (up : Bool) (c : StopCode) (s : State) : State :=
  { s with w := putStopCode (putSearchUp s.w up) c }

/-- `Pn`: the next probe frequency, a mathematical integer (R187). -/
def nextProbe (k : Config) (up : Bool) (p : Freq) : Int :=
  if up then (p.toNat : Int) + k.searchStepHz else (p.toNat : Int) - k.searchStepHz

/-- The end of an accepted search step: re-tune with setStation, then append P when capture is on (R190, R191). -/
def searchAccepted (k : Config) (cap : Bool) (s : State) : State :=
  match setStation k s.p.toNat s with
  | (.commError, t) => finish .commError t
  | (_, t) =>
    if cap then
      match appendPreset k t.p t with
      | some u => finish .complete u
      | none => finish .presetFull t
    else finish .complete t

/-- An in-band search step once P has advanced: probe P, and accept or leave it PENDING (R187, R190, R202). -/
def searchProbe (k : Config) (c : StopCode) (cap : Bool) (s : State) : State :=
  match optimizedTune k s.p.toNat s with
  | (.commError, t) => finish .commError t
  | (.notReady, t) => finish .pending t
  | (.ok, t) => if accept k t.st.ifc t.st.adc c then searchAccepted k cap t else finish .pending t

/-- The two-bound wrap test of a search step (R187, R188). -/
abbrev searchWraps (k : Config) (up : Bool) (s : State) : Prop :=
  nextProbe k up s.p > (bounds k s.w).2 ∨ nextProbe k up s.p < (bounds k s.w).1

/-- SEARCH_STEP dir, lvl, cap (R187) under the parameters `k`: the wrap is decided before the range check (R247). -/
def searchStepWith (k : Config) (up : Bool) (lvl : Level) (cap : Bool) (s : State) : Answer :=
  if searchWraps k up s then
    .next (finish .stop { recordSearch up (levelCode lvl) s with
      p := freqReg k (if up then (bounds k s.w).1 else (bounds k s.w).2) })
  else if tunable k (nextProbe k up s.p) then
    .next (searchProbe k (levelCode lvl) cap { recordSearch up (levelCode lvl) s with
      p := freqReg k (nextProbe k up s.p) })
  else raiseRangeFault s

/-- SEARCH_STEP dir, lvl, cap (R187). -/
def execSearchStep (up : Bool) (lvl : Level) (cap : Bool) (s : State) : Answer := searchStepWith params up lvl cap s

/-- SCAN_BEGIN lvl (R195). -/
def execScanBegin (lvl : Level) (s : State) : Answer :=
  .next (finish .ok { recordSearch true (levelCode lvl) (clearPresets s) with
    c := 0, scanCode := levelCode lvl, scanIdx := 0#16, scanActive := true })

/-- `f_k = minF + k × SEARCH_STEP_HZ`: the scan frequency of an index in the current band (R196, R197). -/
def scanFreq (k : Config) (s : State) : Int := (bounds k s.w).1 + (s.scanIdx.toNat : Int) * k.searchStepHz

/-- A scan that ends: scanActive is cleared (R196). -/
def endScan (r : Result) (s : State) : State := finish r { s with scanActive := false }

/-- The end of an examined scan step: the index advances, and the scan ends past the last frequency (R196, R198). -/
def scanAdvance (k : Config) (s : State) : State :=
  if scanFreq k { s with scanIdx := s.scanIdx + 1#16 } > (bounds k s.w).2 then
    endScan .scanDone { s with scanIdx := s.scanIdx + 1#16 }
  else finish .scanMore { s with scanIdx := s.scanIdx + 1#16 }

/-- Examining one scan frequency `f` (R196): an accepted one is appended and not re-tuned. -/
def scanExamine (k : Config) (f : Int) (s : State) : State :=
  match optimizedTune k f s with
  | (.commError, t) => endScan .commError t
  | (.notReady, t) => scanAdvance k t
  | (.ok, t) =>
    if accept k t.st.ifc t.st.adc t.scanCode then
      match appendPreset k (freqReg k f) t with
      | some u => scanAdvance k u
      | none => endScan .presetFull t
    else scanAdvance k t

/-- SCAN_STEP (R196) under the parameters `k`. -/
def scanStepWith (k : Config) (s : State) : Answer :=
  if s.scanActive = false then .next (finish .scanIdle s)
  else if scanFreq k s > (bounds k s.w).2 then .next (endScan .scanDone s)
  else if tunable k (scanFreq k s) then .next (scanExamine k (scanFreq k s) s)
  else raiseRangeFault s

/-- SCAN_STEP (R196). -/
def execScanStep (s : State) : Answer := scanStepWith params s

end Sys2Proof.Machine
end

