-- ==== Sys2Proof/Machine/Setters.lean ====
section
/-! DEFINITION. The setter commands (40_codec.md R106 to R125). SET_FREQ packs a frequency; each other setter writes one
field of the write image and nothing else. -/

namespace Sys2Proof.Machine

/-- SET_FREQ f (40_codec.md R107) under the parameters `k`. -/
def setFreqWith (k : Config) (f : Freq) (s : State) : Answer :=
  if pllOK k f.toNat (side s.w) then .next (finish .ok (tune k f.toNat s)) else raiseRangeFault s

/-- SET_FREQ f (R107). -/
def execSetFreq (f : Freq) (s : State) : Answer := setFreqWith params f s

/-- SET_MUTE v: writes W[0][7] (R108). -/
def execSetMute (v : Bool) (s : State) : Answer := finishSetter (putMute s.w v) s

/-- SET_SEARCH_MODE v: writes W[0][6] (R109). -/
def execSetSearchMode (v : Bool) (s : State) : Answer := finishSetter (putSearchMode s.w v) s

/-- SET_SEARCH_DIR v: writes W[2][7] (R110). -/
def execSetSearchDir (v : Bool) (s : State) : Answer := finishSetter (putSearchUp s.w v) s

/-- SET_STOP_LEVEL lvl: W[2][6:5] <- code(lvl) (R111). -/
def execSetStopLevel (lvl : Level) (s : State) : Answer := finishSetter (putStopCode s.w (levelCode lvl)) s

/-- SET_INJECTION v: writes W[2][4]; the PLL word is not re-encoded (R112). -/
def execSetInjection (v : Bool) (s : State) : Answer := finishSetter (putInjection s.w v) s

/-- SET_MONO v: writes W[2][3] (R113). -/
def execSetMono (v : Bool) (s : State) : Answer := finishSetter (putMono s.w v) s

/-- SET_MUTE_RIGHT v: writes W[2][2] (R114). -/
def execSetMuteRight (v : Bool) (s : State) : Answer := finishSetter (putMuteRight s.w v) s

/-- SET_MUTE_LEFT v: writes W[2][1] (R115). -/
def execSetMuteLeft (v : Bool) (s : State) : Answer := finishSetter (putMuteLeft s.w v) s

/-- SET_SWP1 v: writes W[2][0] (R116). -/
def execSetSwp1 (v : Bool) (s : State) : Answer := finishSetter (putSwp1 s.w v) s

/-- SET_SWP2 v: writes W[3][7] (R117). -/
def execSetSwp2 (v : Bool) (s : State) : Answer := finishSetter (putSwp2 s.w v) s

/-- SET_STANDBY v: writes W[3][6] (R118). -/
def execSetStandby (v : Bool) (s : State) : Answer := finishSetter (putStandby s.w v) s

/-- SET_BAND v: writes W[3][5]; both bounds change with it (R119). -/
def execSetBand (v : Bool) (s : State) : Answer := finishSetter (putBand s.w v) s

/-- SET_SOFT_MUTE v: writes W[3][3] (R120). -/
def execSetSoftMute (v : Bool) (s : State) : Answer := finishSetter (putSoftMute s.w v) s

/-- SET_HIGH_CUT v: writes W[3][2] (R121). -/
def execSetHighCut (v : Bool) (s : State) : Answer := finishSetter (putHighCut s.w v) s

/-- SET_NOISE_CANCEL v: writes W[3][1] (R122). -/
def execSetNoiseCancel (v : Bool) (s : State) : Answer := finishSetter (putNoiseCancel s.w v) s

/-- SET_SEARCH_IND v: writes W[3][0] (R123). -/
def execSetSearchInd (v : Bool) (s : State) : Answer := finishSetter (putSearchInd s.w v) s

/-- SET_DEEMPH v: writes W[4][6] (R124). -/
def execSetDeemph (v : Bool) (s : State) : Answer := finishSetter (putDeemph s.w v) s

end Sys2Proof.Machine
end

