-- ==== Sys2Proof/Machine/Dispatch.lean ====
section
/-! DEFINITION. The meaning of a command: one arm per constructor of Instr, each one call of its own definition. -/

namespace Sys2Proof.Machine

def exec (i : Instr) (s : State) : Host.Outcome State Fault Refusal :=
  match i with
  | .setFreq f => Sys2Proof.Machine.execSetFreq f s
  | .setMute v => Sys2Proof.Machine.execSetMute v s
  | .setSearchMode v => Sys2Proof.Machine.execSetSearchMode v s
  | .setSearchDir v => Sys2Proof.Machine.execSetSearchDir v s
  | .setStopLevel lvl => Sys2Proof.Machine.execSetStopLevel lvl s
  | .setInjection v => Sys2Proof.Machine.execSetInjection v s
  | .setMono v => Sys2Proof.Machine.execSetMono v s
  | .setMuteRight v => Sys2Proof.Machine.execSetMuteRight v s
  | .setMuteLeft v => Sys2Proof.Machine.execSetMuteLeft v s
  | .setSwp1 v => Sys2Proof.Machine.execSetSwp1 v s
  | .setSwp2 v => Sys2Proof.Machine.execSetSwp2 v s
  | .setStandby v => Sys2Proof.Machine.execSetStandby v s
  | .setBand v => Sys2Proof.Machine.execSetBand v s
  | .setSoftMute v => Sys2Proof.Machine.execSetSoftMute v s
  | .setHighCut v => Sys2Proof.Machine.execSetHighCut v s
  | .setNoiseCancel v => Sys2Proof.Machine.execSetNoiseCancel v s
  | .setSearchInd v => Sys2Proof.Machine.execSetSearchInd v s
  | .setDeemph v => Sys2Proof.Machine.execSetDeemph v s
  | .flush => Sys2Proof.Machine.execFlush s
  | .readRaw => Sys2Proof.Machine.execReadRaw s
  | .readDecode => Sys2Proof.Machine.execReadDecode s
  | .optimize f => Sys2Proof.Machine.execOptimize f s
  | .setStation f => Sys2Proof.Machine.execSetStation f s
  | .searchStep up lvl cap => Sys2Proof.Machine.execSearchStep up lvl cap s
  | .scanBegin lvl => Sys2Proof.Machine.execScanBegin lvl s
  | .scanStep => Sys2Proof.Machine.execScanStep s
  | .presetNext => Sys2Proof.Machine.execPresetNext s
  | .presetPrev => Sys2Proof.Machine.execPresetPrev s
  | .presetDelete => Sys2Proof.Machine.execPresetDelete s

end Sys2Proof.Machine
end

