-- ==== Sys2Proof/Machine/Step.lean ====
section
/-! DEFINITION. One step of the block: it accepts the word at the host port, decodes it and runs it to completion
(00_scope.md R5, 30_encoding.md R80, R85, 70_reset_and_hazards.md R288). With no word at the port the block does nothing:
it "starts no activity on its own" (00_scope.md R6). -/

namespace Sys2Proof.Machine

/-- One step. -/
def step (s : State) : Host.Outcome State Fault Refusal :=
  match acceptWord s with
  | none => .next s
  | some (w, t) =>
    match decodeCmd w with
    | .ok i => exec i t
    | .error _ => raiseIllegal t

/-- The state with a command word standing first at the host port: the block fetches from no memory (20_memory.md R63), so
this stands for the host issuing the word (log entry 1). -/
def State.withFetchWord (s : State) (_nbits w : Nat) : State := presentWord (BitVec.ofNat 32 w) s

end Sys2Proof.Machine
end

