-- ==== Sys2Proof/Machine/Observe.lean ====
section
/-! DEFINITION. The observation port (10_state.md R46): between commands the host reads every state element of R20 and every
view of R34. It is a function of the state, so reading has no side effect. -/

namespace Sys2Proof.Machine

/-- The source's Status fields that are views of the write image (10_state.md R34). -/
structure Views where
  masterMute : Bool
  muteRight : Bool
  muteLeft : Bool
  softMute : Bool
  highCut : Bool
  noiseCancel : Bool
  deemph : Bool
  side : Side
  band : Bool
  minF : Int
  maxF : Int
  searchUp : Bool
  stopCode : StopCode
  deriving DecidableEq, Repr

/-- The views of a write image (R34 to R36). -/
def views (k : Config) (w : Image) : Views where
  masterMute := mute w
  muteRight := muteRight w
  muteLeft := muteLeft w
  softMute := softMute w
  highCut := highCut w
  noiseCancel := noiseCancel w
  deemph := deemph w
  side := side w
  band := band w
  minF := (bounds k w).1
  maxF := (bounds k w).2
  searchUp := searchUp w
  stopCode := stopCode w

/-- What the host reads between commands (R46): the elements of R20 and the views. -/
structure Observation where
  w : Image
  rd : Image
  rdValid : Bool
  st : Status
  p : Freq
  scanActive : Bool
  scanIdx : BitVec 16
  scanCode : StopCode
  l : List Freq
  c : Nat
  res : BitVec 4
  resSide : Bool
  views : Views
  deriving DecidableEq, Repr

/-- The observation port under the parameters `k`. -/
def observeWith (k : Config) (s : State) : Observation where
  w := s.w
  rd := s.rd
  rdValid := s.rdValid
  st := s.st
  p := s.p
  scanActive := s.scanActive
  scanIdx := s.scanIdx
  scanCode := s.scanCode
  l := s.l
  c := s.c
  res := s.res
  resSide := s.resSide
  views := views k s.w

/-- The observation port. -/
def observe (s : State) : Observation := observeWith params s

end Sys2Proof.Machine
end

