-- ==== Sys2Proof/Machine/Pseudo.lean ====
section
/-! DEFINITION. The pseudo-commands of 30_encoding.md R87 and R88, and the host that issues them: a list of commands once, then
one command repeated while a result code comes back. They are the host's doing, not a command of the block. -/

namespace Sys2Proof.Machine

/-- The pseudo-commands (R87, R88). -/
inductive Pseudo where
  | unmute
  | commit (f : Freq) (sd : Side)
  | tune (f : Freq)
  | search (up : Bool) (lvl : Level) (cap : Bool)
  | scanBand (lvl : Level)
  deriving DecidableEq, Repr

/-- What a pseudo-command expands to: commands issued once, in order, then a command repeated while `res` is the given
code. -/
structure Expansion where
  once : List Instr
  loop : Option (Instr × Result)
  deriving DecidableEq, Repr

/-- The expansion of R87 and R88; COMMIT writes the side before the frequency (70_reset_and_hazards.md R280). -/
def expand : Pseudo → Expansion
  | .unmute => ⟨[.setMute false], none⟩
  | .commit f sd => ⟨[.setInjection (sideBit sd), .setFreq f], none⟩
  | .tune f => ⟨[.setFreq f, .flush], none⟩
  | .search up lvl cap => ⟨[], some (.searchStep up lvl cap, .pending)⟩
  | .scanBand lvl => ⟨[.scanBegin lvl], some (.scanStep, .scanMore)⟩

/-- The host issues commands one after the other; it goes on whatever result code comes back. -/
def issueAll : List Instr → State → Answer
  | [], s => .next s
  | i :: is, s =>
    match exec i s with
    | .next t => issueAll is t
    | .fault r => .fault r
    | .refused r => .refused r

/-- The host issues `i` again and again while `res` is `r`, at most `n` times (43_search_fsm.md R193: the host decides
whether to invoke the next step). -/
def issueWhile (i : Instr) (r : Result) : Nat → State → Answer
  | 0, s => .next s
  | n + 1, s =>
    match exec i s with
    | .next t => if t.res = resultCode r then issueWhile i r n t else .next t
    | .fault e => .fault e
    | .refused e => .refused e

/-- The host runs a pseudo-command, with at most `n` rounds of its loop. -/
def issuePseudo (n : Nat) (q : Pseudo) (s : State) : Answer :=
  match issueAll (expand q).once s with
  | .next t =>
    match (expand q).loop with
    | some (i, r) => issueWhile i r n t
    | none => .next t
  | .fault e => .fault e
  | .refused e => .refused e

end Sys2Proof.Machine
end

