-- ==== Sys2Proof/Safety.lean ====
section
/-! DEFINITION. What counts as a safe run, in the terms claims use: the fault reading of RANGE_FAULT and ILLEGAL that
60_exceptions.md R256 asks a model to record, and the invariants of the block (10_state.md R22, R45; 44_presets.md R225;
20_memory.md R51, R61; 70_reset_and_hazards.md R285). -/

namespace Sys2Proof.Machine

/-! ## The fault reading (R256) -/

/-- A state whose last command ended in RANGE_FAULT or ILLEGAL, situations the source does not define (R256). -/
def faulted (s : State) : Bool := s.res == resultCode .rangeFault || s.res == resultCode .illegal

/-- The outcome of the command at the port under R256: the next state, but a fault when it ends in RANGE_FAULT or ILLEGAL
("faulted state never final"). A step that accepts no word has no outcome to judge. -/
def strictStep (s : State) : Answer :=
  match step s with
  | .next t =>
    if s.port = [] then .next t
    else if t.res = resultCode .rangeFault then .fault .rangeFault
    else if t.res = resultCode .illegal then .fault .illegal
    else .next t
  | .fault r => .fault r
  | .refused r => .refused r

/-- `n` strict steps: a run no claim can rest on a faulted command of. -/
def strictRun : Nat → State → Answer
  | 0, s => .next s
  | n + 1, s =>
    match strictStep s with
    | .next t => strictRun n t
    | .fault r => .fault r
    | .refused r => .refused r

/-! ## Invariants -/

/-- The constants of the write image: XTAL = 1, PLLREF = 0, W[4][5:0] = 0 (R22, R45 clause 1). -/
def imageConst (w : Image) : Bool := xtal w && !pllRef w && getField w.b4 0 6 == 0#6

/-- The cursor invariant (44_presets.md R225, R45 clause 2). -/
def cursorOk (s : State) : Bool := if s.l.isEmpty then s.c == 0 else decide (s.c < s.l.length)

/-- A frequency inside the bounds of one of the two bands. -/
def inSomeBand (k : Config) (f : Int) : Bool :=
  [false, true].any fun b => decide ((bandBounds k b).1 ≤ f) && decide (f ≤ (bandBounds k b).2)

/-- An active scan has a frequency left in one of the bands: the part of R45 clause 3 that a later SET_BAND keeps. -/
def scanOk (k : Config) (s : State) : Bool :=
  !s.scanActive ||
    [false, true].any fun b =>
      decide ((bandBounds k b).1 + (s.scanIdx.toNat : Int) * k.searchStepHz ≤ (bandBounds k b).2)

/-- The invariants of the block (R45), with those that follow from the writers of P and L (R37, R39) and from the table of
result codes (60_exceptions.md R241). -/
structure Inv (s : State) : Prop where
  image : imageConst s.w = true
  cursor : cursorOk s = true
  scan : scanOk params s = true
  unread : s.rdValid = false → s.st.valid = false
  probe : inSomeBand params s.p.toNat = true
  presets : s.l.all (fun f => inSomeBand params f.toNat) = true
  result : s.res.toNat ≤ 13

/-- Every Write of a history goes to CHIP_ADDR and is followed at once by Settle(SETTLE_MS), and every Read asks CHIP_ADDR
for five bytes (20_memory.md R51, R61; 70_reset_and_hazards.md R283, R285). -/
def historyOk (k : Config) : List BusEvent → Bool
  | [] => true
  | .write a _ :: .settle ms :: rest => a == k.chipAddr && ms == k.settleMs && historyOk k rest
  | .read a n _ :: rest => a == k.chipAddr && n == k.imageBytes && historyOk k rest
  | .settle _ :: _ => false
  | .write _ _ :: _ => false

/-- Every image that a history sends holds the constants of R22. -/
def historyImages (h : List BusEvent) : Bool :=
  h.all fun e => match e with
    | .write _ m => imageConst m
    | _ => true

/-- The number of Write events of a history (70_reset_and_hazards.md R286). -/
def writes (h : List BusEvent) : Nat :=
  h.countP fun e => match e with
    | .write _ _ => true
    | _ => false

/-- The number of Settle events of a history (R286). -/
def settles (h : List BusEvent) : Nat :=
  h.countP fun e => match e with
    | .settle _ => true
    | _ => false

/-- The number of Read events of a history (R286). -/
def reads (h : List BusEvent) : Nat :=
  h.countP fun e => match e with
    | .read _ _ _ => true
    | _ => false

end Sys2Proof.Machine
end

