-- ==== Sys2Proof/Certificates/Slice0/Obligations.lean ====
section
/-! DEFINITION. The statements about the block, from the numbered rules of spec/. Where a rule gives a number, the statement
writes the number of the rule, not the model's name for it; the helpers of `Claims` are read from the rules alone.
Answers lined up in `answers` stand for what the oracle answers to the next reads (the model's choice, log entry 2). The bus
address 0x60, the band-1 bounds, the read-flag positions, the polarities, the stop codes and the tie rule of "round" are the
spec's own decisions or general knowledge (log entries 6 to 10). -/

namespace Sys2Proof.Claims

open Sys2Proof.Machine

/-! ## The rules' own arithmetic -/

/-- `pllRaw(f, side)` with the numbers of 40_codec.md R100. -/
def pllOf (f : Int) (high : Bool) : Int := (f + (if high then 225000 else -225000) + 4096) / 8192

/-- `freqOf(pll, side)` with the numbers of 40_codec.md R103. -/
def hertzOf (pll : Int) (high : Bool) : Int := pll * 8192 - (if high then 225000 else -225000)

/-- The PLL value of R100 fits the 14-bit field (R102). -/
def fits (f : Int) (high : Bool) : Prop := 0 ≤ pllOf f high ∧ pllOf f high ≤ 16383

/-- The range of 42_optimizer.md R171. -/
def inTunableRange (f : Int) : Prop := 670904 ≤ f ∧ f ≤ 133538631

/-- minF of a band (10_state.md R35). -/
def minHz (b : Bool) : Int := if b then 76000000 else 87500000

/-- maxF of a band (R35). -/
def maxHz (b : Bool) : Int := if b then 91000000 else 108000000

/-- `code(lvl)` as a number (30_encoding.md R78). -/
def codeOf (lvl : Level) : Nat := if lvl.toNat ≤ 3 then lvl.toNat else 3

/-- The ADC threshold of a code (43_search_fsm.md R184). -/
def thresholdOf (code : Nat) : Nat := if code = 0 then 0 else if code = 1 then 5 else if code = 2 then 7 else 10

/-- The IF count a frame carries: byte 2 bits 6:0 (30_encoding.md R76). -/
def countOf (m : Image) : Nat := m.b2.toNat % 128

/-- The ADC level a frame carries: byte 3 bits 7:4 (R76). -/
def levelOf (m : Image) : Nat := m.b3.toNat / 16

/-- The acceptance test on a frame, against a stop-level code (R183). -/
def acceptable (m : Image) (code : Nat) : Prop :=
  52 ≤ countOf m ∧ countOf m ≤ 58 ∧ thresholdOf code ≤ levelOf m

/-- The side the optimizer chooses from its two probe frames, true for HIGH (42_optimizer.md R174). -/
def choosesHigh (m1 m2 : Image) : Bool := decide (levelOf m1 < levelOf m2)

/-- A frame with a nonzero PLL word (41_bus_status.md R147). -/
def settled (m : Image) : Prop := pllWord m ≠ 0#14

/-! ## Frames over the write image -/

/-- Every bit of the image outside `may` is as before. -/
def onlyBits (may : Nat → Nat → Bool) (v w : Image) : Prop :=
  ∀ j b, j < 5 → b < 8 → may j b = false → (w.byte j).getLsbD b = (v.byte j).getLsbD b

/-- The bits of `tune`: W[0][5:0] and W[1] (40_codec.md R105). -/
def pllBits (j b : Nat) : Bool := (j == 0 && decide (b < 6)) || j == 1

/-- The bits of `commit` and `optimize`: the PLL bits and W[2][4] (43_search_fsm.md R182). -/
def tuneBits (j b : Nat) : Bool := pllBits j b || (j == 2 && b == 4)

/-- The bits of `setStation`: those of a commit, W[0][7] and W[0][6] (R185). -/
def stationBits (j b : Nat) : Bool := tuneBits j b || j == 0

/-- The bits that record a search: W[2][7] and W[2][6:5] (R187, R195). -/
def recordBits (j b : Nat) : Bool := j == 2 && decide (5 ≤ b)

/-- The image is committed to a frequency and a side: HLSI and the PLL word of R100. -/
def committed (w : Image) (f : Int) (high : Bool) : Prop :=
  injection w = high ∧ ((pllWord w).toNat : Int) = pllOf f high

/-- What the commands that drive the bus leave alone beside W: P, the scan registers, L, C, resSide and the host's
stream. -/
def busFrame (s t : State) : Prop :=
  t = { s with
    w := t.w, rd := t.rd, rdValid := t.rdValid, st := t.st, res := t.res, events := t.events, answers := t.answers }

/-- The status that a settled frame decodes to under a side (41_bus_status.md R146, R150). -/
def decodesTo (s : Status) (m : Image) (high : Bool) : Prop :=
  s.valid = true ∧ s.ready = m.b0.getLsbD 7 ∧ s.blf = m.b0.getLsbD 6 ∧ s.stereo = m.b2.getLsbD 7 ∧
  s.ifc.toNat = m.b2.toNat % 128 ∧ s.adc.toNat = m.b3.toNat / 16 ∧
  s.freq.toInt = hertzOf ((m.b0.toNat % 64 * 256 + m.b1.toNat : Nat) : Int) high

/-- The events of one flush and one settled read (41_bus_status.md R140, R142). -/
def flushAndRead (w m : Image) : List BusEvent := [.write 0x60#7 w, .settle 35, .read 0x60#7 5 (.bytes m)]

/-- A read of the history that timed out. -/
def timedOut : BusEvent := .read 0x60#7 5 .timeout

/-! ## Tables over the commands -/

/-- Byte, bit and value that a one-bit setter writes (40_codec.md R108 to R124). -/
def bitTarget : Instr → Option (Nat × Nat × Bool)
  | .setMute v => some (0, 7, v)
  | .setSearchMode v => some (0, 6, v)
  | .setSearchDir v => some (2, 7, v)
  | .setInjection v => some (2, 4, v)
  | .setMono v => some (2, 3, v)
  | .setMuteRight v => some (2, 2, v)
  | .setMuteLeft v => some (2, 1, v)
  | .setSwp1 v => some (2, 0, v)
  | .setSwp2 v => some (3, 7, v)
  | .setStandby v => some (3, 6, v)
  | .setBand v => some (3, 5, v)
  | .setSoftMute v => some (3, 3, v)
  | .setHighCut v => some (3, 2, v)
  | .setNoiseCancel v => some (3, 1, v)
  | .setSearchInd v => some (3, 0, v)
  | .setDeemph v => some (4, 6, v)
  | .setFreq _ | .setStopLevel _ | .flush | .readRaw | .readDecode | .optimize _ | .setStation _
  | .searchStep _ _ _ | .scanBegin _ | .scanStep | .presetNext | .presetPrev | .presetDelete => none

/-- The result codes a command can end with, by the "produced by" column of 60_exceptions.md R241 (ILLEGAL comes from the
decoder, before any command). -/
def resultsOf : Instr → List Nat
  | .setFreq _ => [0, 11]
  | .readRaw => [0, 1]
  | .readDecode => [0, 2, 3]
  | .optimize _ => [0, 3, 11]
  | .setStation _ => [0, 2, 3, 11]
  | .searchStep _ _ _ => [3, 4, 5, 6, 11, 13]
  | .scanStep => [3, 7, 8, 9, 11, 13]
  | .presetNext => [0, 10, 11]
  | .presetPrev => [0, 10, 11]
  | .presetDelete => [0, 2, 3, 10, 11]
  | .setMute _ | .setSearchMode _ | .setSearchDir _ | .setStopLevel _ | .setInjection _ | .setMono _
  | .setMuteRight _ | .setMuteLeft _ | .setSwp1 _ | .setSwp2 _ | .setStandby _ | .setBand _ | .setSoftMute _
  | .setHighCut _ | .setNoiseCancel _ | .setSearchInd _ | .setDeemph _ | .flush | .scanBegin _ => [0]

/-- The next probe frequency of a search step (R187). -/
def probeHz (up : Bool) (s : State) : Int := if up then (s.p.toNat : Int) + 100000 else (s.p.toNat : Int) - 100000

/-- The two-bound wrap test (R187, R188). -/
def wraps (up : Bool) (s : State) : Prop := probeHz up s > maxHz (band s.w) ∨ probeHz up s < minHz (band s.w)

/-- The scan frequency of the current index (R196). -/
def scanHz (s : State) : Int := minHz (band s.w) + (s.scanIdx.toNat : Int) * 100000

/-- The entry at an index of the preset list. -/
def entry (l : List Freq) (n : Nat) : Int := ((l.getD n 0#27).toNat : Int)

/-- The preset list and cursor after deleting at the cursor, with the clamp of 44_presets.md R223. -/
def afterDelete (s : State) : List Freq × Nat :=
  (s.l.eraseIdx s.c,
    if s.c < (s.l.eraseIdx s.c).length then s.c else (s.l.eraseIdx s.c).length - 1)

/-- When a command raises RANGE_FAULT: the checks of 40_codec.md R107, 42_optimizer.md R173, 43_search_fsm.md R186, R187,
R196 and 44_presets.md R221 to R223. -/
def outOfRange : Instr → State → Prop
  | .setFreq f, s => ¬ fits f.toNat (injection s.w)
  | .optimize f, _ => ¬ inTunableRange f.toNat
  | .setStation f, _ => ¬ inTunableRange f.toNat
  | .searchStep up _ _, s => ¬ wraps up s ∧ ¬ inTunableRange (probeHz up s)
  | .scanStep, s => s.scanActive = true ∧ scanHz s ≤ maxHz (band s.w) ∧ ¬ inTunableRange (scanHz s)
  | .presetNext, s => s.l ≠ [] ∧ ¬ fits (entry s.l ((s.c + 1) % s.l.length)) (injection s.w)
  | .presetPrev, s => s.l ≠ [] ∧ ¬ fits (entry s.l ((s.c + s.l.length - 1) % s.l.length)) (injection s.w)
  | .presetDelete, s =>
    s.l ≠ [] ∧ (afterDelete s).1 ≠ [] ∧ ¬ inTunableRange (entry (afterDelete s).1 (afterDelete s).2)
  | .setMute _, _ | .setSearchMode _, _ | .setSearchDir _, _ | .setStopLevel _, _ | .setInjection _, _
  | .setMono _, _ | .setMuteRight _, _ | .setMuteLeft _, _ | .setSwp1 _, _ | .setSwp2 _, _
  | .setStandby _, _ | .setBand _, _ | .setSoftMute _, _ | .setHighCut _, _ | .setNoiseCancel _, _
  | .setSearchInd _, _ | .setDeemph _, _ | .flush, _ | .readRaw, _ | .readDecode, _ | .scanBegin _, _ => False

/-- The Write and Read counts of a command that did not end in COMM_ERROR, as (Writes, least Reads, most Reads), by the
table of 70_reset_and_hazards.md R286. -/
def busCounts (i : Instr) (s t : State) : Nat × Nat × Nat :=
  match i with
  | .flush => (1, 0, 0)
  | .readRaw => (0, 1, 1)
  | .readDecode => (0, 1, 25)
  | .optimize _ => if t.res.toNat = 11 then (0, 0, 0) else (2, 2, 50)
  | .setStation _ => if t.res.toNat = 11 then (0, 0, 0) else (3, 3, 75)
  | .searchStep _ _ _ =>
    if t.res.toNat = 4 then (3, 3, 75) else if t.res.toNat = 6 then (6, 6, 150) else (0, 0, 0)
  | .scanStep => if t.scanIdx = s.scanIdx then (0, 0, 0) else (3, 3, 75)
  | .presetNext => if t.res.toNat = 0 then (1, 0, 0) else (0, 0, 0)
  | .presetPrev => if t.res.toNat = 0 then (1, 0, 0) else (0, 0, 0)
  | .presetDelete => if t.l = [] ∨ t.res.toNat = 11 then (0, 0, 0) else (3, 3, 75)
  | .setFreq _ | .setMute _ | .setSearchMode _ | .setSearchDir _ | .setStopLevel _ | .setInjection _
  | .setMono _ | .setMuteRight _ | .setMuteLeft _ | .setSwp1 _ | .setSwp2 _ | .setStandby _ | .setBand _
  | .setSoftMute _ | .setHighCut _ | .setNoiseCancel _ | .setSearchInd _ | .setDeemph _ | .scanBegin _ => (0, 0, 0)

/-- The most Writes and Reads of a command, COMM_ERROR included (R286, R292). -/
def busLimits : Instr → Nat × Nat
  | .flush => (1, 0)
  | .readRaw => (0, 1)
  | .readDecode => (0, 25)
  | .optimize _ => (2, 50)
  | .setStation _ => (3, 75)
  | .searchStep _ _ _ => (6, 150)
  | .scanStep => (3, 75)
  | .presetNext => (1, 0)
  | .presetPrev => (1, 0)
  | .presetDelete => (3, 75)
  | .setFreq _ | .setMute _ | .setSearchMode _ | .setSearchDir _ | .setStopLevel _ | .setInjection _
  | .setMono _ | .setMuteRight _ | .setMuteLeft _ | .setSwp1 _ | .setSwp2 _ | .setStandby _ | .setBand _
  | .setSoftMute _ | .setHighCut _ | .setNoiseCancel _ | .setSearchInd _ | .setDeemph _ | .scanBegin _ => (0, 0)

/-- What a command from `s` to `t` does to the preset list (10_state.md R39; 43_search_fsm.md R187, R195, R196; 44_presets.md
R223). -/
def presetsAfter (i : Instr) (s t : State) : Prop :=
  match i with
  | .scanBegin _ => t.l = []
  | .scanStep =>
    (t.scanIdx ≠ s.scanIdx ∧ settled t.rd ∧ acceptable t.rd s.scanCode.toNat →
      ∃ f : Freq, (f.toNat : Int) = scanHz s ∧ t.l = s.l ++ [f]) ∧
    (¬ (t.scanIdx ≠ s.scanIdx ∧ settled t.rd ∧ acceptable t.rd s.scanCode.toNat) → t.l = s.l)
  | .searchStep _ _ cap => t.l = if t.res.toNat = 6 ∧ cap = true then s.l ++ [t.p] else s.l
  | .presetDelete => t.l = if t.res.toNat = 11 then s.l else s.l.eraseIdx s.c
  | .setFreq _ | .setMute _ | .setSearchMode _ | .setSearchDir _ | .setStopLevel _ | .setInjection _ | .setMono _
  | .setMuteRight _ | .setMuteLeft _ | .setSwp1 _ | .setSwp2 _ | .setStandby _ | .setBand _ | .setSoftMute _
  | .setHighCut _ | .setNoiseCancel _ | .setSearchInd _ | .setDeemph _ | .flush | .readRaw | .readDecode
  | .optimize _ | .setStation _ | .presetNext | .presetPrev => t.l = s.l

end Sys2Proof.Claims

open Sys2Proof Sys2Proof.Machine Sys2Proof.Claims

/-! ## Encoding -/

/-- Decoding the word of any command gives the command back, at every operand (30_encoding.md R80 to R82, R85). -/
def Obligations.DecodeInvertsEncode : Prop := ∀ i : Instr, decodeCmd (encode i) = .ok i

/-- Every word has one meaning: encoding what a legal word decodes to gives the word (R80 to R82, R85). -/
def Obligations.EncodeInvertsDecode : Prop := ∀ (w : Word) (i : Instr), decodeCmd w = .ok i → encode i = w

/-- R82: the decoder accepts exactly the words that select a row, each such word selects one row only, and the command is
the row's. -/
def Obligations.LegalWordsSelectOneOpcodeRow : Prop :=
  (∀ w : Word, (∃ i, decodeCmd w = .ok i) ↔ ∃ r ∈ opRows, w &&& r.maskWord = r.matchWord) ∧
  ∀ (w : Word) (i : Instr) (r : OpRow), decodeCmd w = .ok i → r ∈ opRows → w &&& r.maskWord = r.matchWord →
    r.mnemonic = mnemonic i

/-- R83, R84, R245: a word with an opcode 0x00, 0x1E or 0x1F, or with a bit set that its row's form requires to be zero,
changes nothing but `res <- ILLEGAL` (12); that the word leaves the port is the model's choice (log entry 1). -/
def Obligations.IllegalWordsChangeOnlyRes : Prop :=
  ∀ (s : State) (w : Word) (rest : List Word), s.port = w :: rest →
    (w.extractLsb' 27 5 = 0x00#5 ∨ w.extractLsb' 27 5 = 0x1E#5 ∨ w.extractLsb' 27 5 = 0x1F#5 ∨
      ∃ r ∈ opRows, w.extractLsb' 27 5 = r.matchWord.extractLsb' 27 5 ∧ w &&& r.maskWord ≠ r.matchWord) →
    step s = .next { s with port := rest, res := 12#4 }

/-- Words written out from the encodings of 30_encoding.md R82 and R86 decode to the commands they stand for, one for each
form and family. -/
def Obligations.WrittenOutWordsDecode : Prop :=
  decodeCmd 0x0E06A9E0#32 = .ok (.setFreq 101100000#27) ∧
  decodeCmd 0x10000001#32 = .ok (.setMute true) ∧
  decodeCmd 0x28000007#32 = .ok (.setStopLevel 7#3) ∧
  decodeCmd 0x98000000#32 = .ok .flush ∧
  decodeCmd 0xB5F5E100#32 = .ok (.optimize 100000000#27) ∧
  decodeCmd 0xC0000015#32 = .ok (.searchStep true 2#3 true) ∧
  decodeCmd 0xC0000002#32 = .ok (.searchStep false 1#3 false) ∧
  decodeCmd 0xC8000003#32 = .ok (.scanBegin 3#3) ∧
  decodeCmd 0xE8000000#32 = .ok .presetDelete

/-! ## The step -/

/-- A step runs the decoded command on the state without the accepted word (R80, R85), and with no word at the port it
changes nothing: the block "starts no activity on its own" (00_scope.md R6). The host port as a list of words, and the idle
step as a next state, are the model's choice (log entry 1). -/
def Obligations.StepRunsTheDecodedCommand : Prop :=
  (∀ (s : State) (w : Word) (rest : List Word) (i : Instr), s.port = w :: rest → decodeCmd w = .ok i →
    step s = exec i { s with port := rest }) ∧
  ∀ s : State, s.port = [] → step s = .next s

/-- R240, R241: every command ends normally, with one of the result codes that the table gives it. -/
def Obligations.EveryCommandEndsWithItsResultCodes : Prop :=
  ∀ (i : Instr) (s : State), ∃ t, exec i s = .next t ∧ t.res.toNat ∈ resultsOf i

/-- R244: a command ends in RANGE_FAULT exactly when its range check fails, and then nothing but res has changed. -/
def Obligations.RangeFaultChangesOnlyRes : Prop :=
  ∀ (i : Instr) (s t : State), exec i s = .next t →
    (t.res = 11#4 ↔ outOfRange i s) ∧ (outOfRange i s → t = { s with res := 11#4 })

/-- R256: the fault reading of a step. A word that the decoder rejects is the fault ILLEGAL, a command that ends in
RANGE_FAULT is the fault RANGE_FAULT, and every other command keeps its next state. -/
def Obligations.StrictStepFaultsOnUndefinedSituations : Prop :=
  ∀ (s : State) (w : Word) (rest : List Word), s.port = w :: rest →
    ((∀ i, decodeCmd w ≠ .ok i) → strictStep s = .fault .illegal) ∧
    ∀ i, decodeCmd w = .ok i →
      (outOfRange i { s with port := rest } → strictStep s = .fault .rangeFault) ∧
      (¬ outOfRange i { s with port := rest } → ∃ t, step s = .next t ∧ strictStep s = .next t)

/-! ## Frequency codec -/

/-- R102: which 27-bit frequencies have a PLL word that fits, on each side; SET_FREQ is refused exactly for the others. -/
def Obligations.PllRangeEdges : Prop :=
  ∀ (f : Freq) (s : State),
    (¬ pllOK params f.toNat .high ↔ 133988632 ≤ f.toNat) ∧ (¬ pllOK params f.toNat .low ↔ f.toNat ≤ 220903) ∧
    (exec (.setFreq f) s = .next { s with res := 11#4 } ↔
      if injection s.w then 133988632 ≤ f.toNat else f.toNat ≤ 220903)

/-- R104: encoding and decoding under one side moves a frequency by more than -4096 Hz and at most 4096 Hz. -/
def Obligations.PllRoundTripBound : Prop :=
  ∀ (f : Int) (sd : Side), pllOK params f sd →
    -4096 < freqOf params (pllFor params f sd) sd - f ∧ freqOf params (pllFor params f sd) sd - f ≤ 4096

/-- R171: `tunable` is one interval, and both bands lie inside it. -/
def Obligations.TunableIsOneInterval : Prop :=
  (∀ f : Int, tunable params f ↔ 670904 ≤ f ∧ f ≤ 133538631) ∧
  ∀ (b : Bool) (f : Int), minHz b ≤ f → f ≤ maxHz b → tunable params f

/-- R71 to R75: each byte of a write image that holds its constants is the sum of its fields, and byte 4 is 0x00 or 0x40. -/
def Obligations.ImageBytesAreTheirFields : Prop :=
  ∀ w : Image, imageConst w = true →
    w.b0.toNat = (mute w).toNat * 128 + (searchMode w).toNat * 64 + (pllWord w).toNat / 256 ∧
    w.b1.toNat = (pllWord w).toNat % 256 ∧
    w.b2.toNat = (searchUp w).toNat * 128 + (stopCode w).toNat * 32 + (injection w).toNat * 16 + (mono w).toNat * 8 +
      (muteRight w).toNat * 4 + (muteLeft w).toNat * 2 + (swp1 w).toNat ∧
    w.b3.toNat = (swp2 w).toNat * 128 + (standby w).toNat * 64 + (band w).toNat * 32 + 16 + (softMute w).toNat * 8 +
      (highCut w).toNat * 4 + (noiseCancel w).toNat * 2 + (searchInd w).toNat ∧
    w.b4.toNat = (deemph w).toNat * 64 ∧ (w.b4 = 0x00#8 ∨ w.b4 = 0x40#8)

/-! ## Setters -/

/-- R107: SET_FREQ writes the PLL word of the frequency under the side in W, and nothing else but res. -/
def Obligations.SetFreqWritesThePllWord : Prop :=
  ∀ (f : Freq) (s : State),
    (fits f.toNat (injection s.w) → ∃ t, exec (.setFreq f) s = .next t ∧ t = { s with w := t.w, res := 0#4 } ∧
      ((pllWord t.w).toNat : Int) = pllOf f.toNat (injection s.w) ∧ onlyBits pllBits s.w t.w) ∧
    (¬ fits f.toNat (injection s.w) → exec (.setFreq f) s = .next { s with res := 11#4 })

/-- R108 to R110, R112 to R116: SET_MUTE, SET_SEARCH_MODE, SET_SEARCH_DIR, SET_INJECTION, SET_MONO, SET_MUTE_RIGHT,
SET_MUTE_LEFT and SET_SWP1 complete, write their one bit of byte 0 or 2 and nothing else but `res <- OK`. -/
def Obligations.BitSettersOfBytesZeroAndTwo : Prop :=
  ∀ (i : Instr) (j b : Nat) (v : Bool), bitTarget i = some (j, b, v) → j ≤ 2 → ∀ s : State,
    ∃ t, exec i s = .next t ∧ t = { s with w := t.w, res := 0#4 } ∧ (t.w.byte j).getLsbD b = v ∧
      onlyBits (fun j' b' => j' == j && b' == b) s.w t.w

/-- R117, R118, R120 to R124 and the write of R119: SET_SWP2, SET_STANDBY, SET_BAND, SET_SOFT_MUTE, SET_HIGH_CUT,
SET_NOISE_CANCEL, SET_SEARCH_IND and SET_DEEMPH complete, write their one bit of byte 3 or 4 and nothing else but
`res <- OK`. -/
def Obligations.BitSettersOfBytesThreeAndFour : Prop :=
  ∀ (i : Instr) (j b : Nat) (v : Bool), bitTarget i = some (j, b, v) → 3 ≤ j → ∀ s : State,
    ∃ t, exec i s = .next t ∧ t = { s with w := t.w, res := 0#4 } ∧ (t.w.byte j).getLsbD b = v ∧
      onlyBits (fun j' b' => j' == j && b' == b) s.w t.w

/-- R111, R78: SET_STOP_LEVEL completes and writes the code of the level to W[2][6:5] and nothing else but res. -/
def Obligations.SetStopLevelWritesTheCode : Prop :=
  ∀ (lvl : Level) (s : State), ∃ t, exec (.setStopLevel lvl) s = .next t ∧ t = { s with w := t.w, res := 0#4 } ∧
    (stopCode t.w).toNat = codeOf lvl ∧ onlyBits (fun j b => j == 2 && (b == 5 || b == 6)) s.w t.w

/-- R119, R35: SET_BAND moves both bounds together and leaves P, the scan registers, L and C alone. The bounds of band 1 are
the spec's general knowledge (log entry 8). -/
def Obligations.SetBandMovesBothBounds : Prop :=
  ∀ (v : Bool) (s : State), ∃ t, exec (.setBand v) s = .next t ∧
    bounds params t.w = (if v then (76000000, 91000000) else (87500000, 108000000)) ∧
    t.p = s.p ∧ t.scanActive = s.scanActive ∧ t.scanIdx = s.scanIdx ∧ t.scanCode = s.scanCode ∧ t.l = s.l ∧ t.c = s.c

/-- R112, R280: SET_INJECTION after SET_FREQ changes the side in effect and leaves the PLL word encoded for the side that
was in force before it. -/
def Obligations.InjectionDoesNotReencode : Prop :=
  ∀ (f : Freq) (v : Bool) (s t u : State), exec (.setFreq f) s = .next t → t.res = 0#4 →
    exec (.setInjection v) t = .next u →
    ((pllWord u.w).toNat : Int) = pllOf f.toNat (injection s.w) ∧ injection u.w = v

/-! ## Bus and status -/

/-- R140: FLUSH completes with one Write of W to CHIP_ADDR and one Settle(35), and writes nothing but res. -/
def Obligations.FlushSendsTheWriteImage : Prop :=
  ∀ s : State, exec .flush s =
    .next { s with res := 0#4, events := s.events ++ [.write params.chipAddr s.w, .settle 35] }

/-- R142, R143: READ_RAW completes with one Read of five bytes: a frame replaces Rd whole and clears S.readTimeout, a timeout
leaves Rd and rdValid and sets it; nothing is decoded. The answer is used up from the model's `answers` (log entry 2). -/
def Obligations.ReadRawTakesAFrameOrTimesOut : Prop :=
  ∀ (s : State),
    (∀ m, nextAnswer s = .bytes m → exec .readRaw s = .next { s with
      rd := m, rdValid := true, st := { s.st with readTimeout := false }, res := 0#4,
      events := s.events ++ [.read 0x60#7 5 (.bytes m)], answers := s.answers.tail }) ∧
    (nextAnswer s = .timeout → exec .readRaw s = .next { s with
      st := { s.st with readTimeout := true }, res := 1#4, events := s.events ++ [timedOut],
      answers := s.answers.tail })

/-- R151 to R153: READ_DECODE completes for every answer of the oracle, with OK, NOT_READY or COMM_ERROR; it writes Rd,
rdValid, S and res only; it makes at least one and at most 25 reads and no other bus event; and it ends in COMM_ERROR exactly
when five timeouts come in a row. -/
def Obligations.ReadDecodeCompletesWithinItsBounds : Prop :=
  ∀ s : State, ∃ t h, exec .readDecode s = .next t ∧ busFrame s t ∧ t.w = s.w ∧ t.events = s.events ++ h ∧
    1 ≤ h.length ∧ h.length ≤ 25 ∧ (∀ e ∈ h, ∃ a, e = .read 0x60#7 5 a) ∧
    (t.res = 0#4 ∨ t.res = 2#4 ∨ t.res = 3#4) ∧ (t.res = 3#4 ↔ List.replicate 5 timedOut <:+: h)

/-- R146, R149 to R151: READ_DECODE completes with OK on a settled frame after up to four timeouts and up to four zero-PLL
frames in a row; and whenever it ends in OK, the status is the decoding of the frame in Rd under the side in W, with a nonzero
PLL word, and readTimeout is 0. -/
def Obligations.ReadDecodeDecodesTheFrame : Prop :=
  (∀ (s : State) (m z : Image) (a b : Nat) (rest : List ReadAnswer), a ≤ 4 → b ≤ 4 → ¬ settled z → settled m →
    s.answers = List.replicate b (.bytes z) ++ List.replicate a .timeout ++ .bytes m :: rest →
    ∃ t, exec .readDecode s = .next t ∧ t.res = 0#4 ∧ t.rd = m ∧ decodesTo t.st m (injection s.w) ∧
      t.st.readTimeout = false ∧ reads t.events = reads s.events + a + b + 1 ∧ t.answers = rest) ∧
  ∀ s t : State, exec .readDecode s = .next t → t.res = 0#4 →
    settled t.rd ∧ t.rdValid = true ∧ decodesTo t.st t.rd (injection s.w) ∧ t.st.readTimeout = false

/-- R154: after COMM_ERROR every decoded field is as before, readTimeout is 1, and Rd is from before the command or a
zero-PLL frame. -/
def Obligations.CommErrorKeepsTheStaleStatus : Prop :=
  ∀ s t : State, exec .readDecode s = .next t → t.res = 3#4 →
    t.st = { s.st with readTimeout := true } ∧
    (t.rd = s.rd ∧ t.rdValid = s.rdValid ∨ pllWord t.rd = 0#14 ∧ t.rdValid = true)

/-- R155: after NOT_READY every decoded field is as before, readTimeout is 0, and Rd holds a zero-PLL frame. -/
def Obligations.NotReadyKeepsTheStaleStatus : Prop :=
  ∀ s t : State, exec .readDecode s = .next t → t.res = 2#4 →
    t.st = { s.st with readTimeout := false } ∧ pllWord t.rd = 0#14 ∧ t.rdValid = true

/-- R148, R281: the same frame read under the other side decodes to a frequency 450000 Hz away. -/
def Obligations.WrongSideDecodesFourHundredFiftyKilohertzOff : Prop :=
  ∀ (s t u : State) (m : Image) (rest : List ReadAnswer) (v : Image), s.answers = .bytes m :: rest → settled m →
    injection s.w = true → injection v = false →
    exec .readDecode s = .next t → exec .readDecode { s with w := v } = .next u →
    u.st.freq.toInt = t.st.freq.toInt + 450000

/-! ## Optimizer -/

/-- R170, R173, R174: on a tunable frequency whose two probe reads give settled frames, OPTIMIZE completes: it sends the HIGH
probe at f + 450 kHz and the LOW probe at f - 450 kHz, chooses HIGH exactly when the first level is the smaller, and leaves
the second probe in W. -/
def Obligations.OptimizeChoosesTheWeakerProbe : Prop :=
  ∀ (f : Freq) (s : State) (m1 m2 : Image) (rest : List ReadAnswer), inTunableRange f.toNat →
    s.answers = .bytes m1 :: .bytes m2 :: rest → settled m1 → settled m2 →
    ∃ t w1, exec (.optimize f) s = .next t ∧ t.res = 0#4 ∧ t.resSide = choosesHigh m1 m2 ∧
      committed w1 ((f.toNat : Int) + 450000) true ∧ committed t.w ((f.toNat : Int) - 450000) false ∧
      t.events = s.events ++ flushAndRead w1 m1 ++ flushAndRead t.w m2 ∧ t.rd = m2 ∧ decodesTo t.st m2 false ∧
      t.answers = rest

/-- R173: OPTIMIZE on a tunable frequency completes for every answer of the oracle, with OK or COMM_ERROR; it writes only the
tuning bits of W, Rd, rdValid, S, res and, on OK, resSide; on OK, W holds the second probe. -/
def Obligations.OptimizeFrame : Prop :=
  ∀ (f : Freq) (s : State), inTunableRange f.toNat → ∃ t, exec (.optimize f) s = .next t ∧
    (t.res = 0#4 ∨ t.res = 3#4) ∧ busFrame s { t with resSide := s.resSide } ∧ onlyBits tuneBits s.w t.w ∧
    (t.res = 3#4 → t.resSide = s.resSide) ∧ (t.res = 0#4 → committed t.w ((f.toNat : Int) - 450000) false)

/-- R170, R173: five timeouts in the first probe end OPTIMIZE with COMM_ERROR: one Write and Settle, five Reads, W holds the
HIGH probe, and the decoded status and resSide are as before. -/
def Obligations.OptimizeStopsAtTheFirstCommError : Prop :=
  ∀ (f : Freq) (s : State) (rest : List ReadAnswer), inTunableRange f.toNat →
    s.answers = List.replicate 5 .timeout ++ rest →
    ∃ t, exec (.optimize f) s = .next t ∧ t.res = 3#4 ∧ committed t.w ((f.toNat : Int) + 450000) true ∧
      t.events = s.events ++ [.write 0x60#7 t.w, .settle 35] ++ List.replicate 5 timedOut ∧
      t.st = { s.st with readTimeout := true } ∧ t.resSide = s.resSide ∧ t.rd = s.rd

/-- R172: a NOT_READY probe counts with the stale level, the S.adc from before that probe. A NOT_READY first probe counts with
the level from before the command; a NOT_READY second probe counts with the first probe's level, and when both are NOT_READY
both count with the level from before the command: in these two cases the levels tie and the side is LOW (R174). After a
NOT_READY second probe S.adc still holds the stale level. -/
def Obligations.NotReadyProbeUsesTheStaleLevel : Prop :=
  ∀ (f : Freq) (s : State) (m z y : Image) (rest : List ReadAnswer), inTunableRange f.toNat → settled m → ¬ settled z →
    ¬ settled y →
    (s.answers = List.replicate 5 (.bytes z) ++ .bytes m :: rest →
      ∃ t, exec (.optimize f) s = .next t ∧ t.res = 0#4 ∧ t.resSide = decide (s.st.adc.toNat < levelOf m) ∧
        t.st.adc.toNat = levelOf m) ∧
    (s.answers = .bytes m :: (List.replicate 5 (.bytes z) ++ rest) →
      ∃ t, exec (.optimize f) s = .next t ∧ t.res = 0#4 ∧ t.resSide = false ∧ t.st.adc.toNat = levelOf m) ∧
    (s.answers = List.replicate 5 (.bytes z) ++ (List.replicate 5 (.bytes y) ++ rest) →
      ∃ t, exec (.optimize f) s = .next t ∧ t.res = 0#4 ∧ t.resSide = false ∧
        t.st = { s.st with readTimeout := false })

/-! ## Station, search and scan -/

/-- R185, R186: on a tunable frequency whose three reads give settled frames, SET_STATION completes with OK: it unmutes, clears
search mode, tunes to f under the chosen side, and decodes the last frame under that side. -/
def Obligations.SetStationTunesUnderTheChosenSide : Prop :=
  ∀ (f : Freq) (s : State) (m1 m2 m3 : Image) (rest : List ReadAnswer), inTunableRange f.toNat →
    s.answers = .bytes m1 :: .bytes m2 :: .bytes m3 :: rest → settled m1 → settled m2 → settled m3 →
    ∃ t w1 w2, exec (.setStation f) s = .next t ∧ t.res = 0#4 ∧ mute t.w = false ∧ searchMode t.w = false ∧
      committed w1 ((f.toNat : Int) + 450000) true ∧ committed w2 ((f.toNat : Int) - 450000) false ∧
      committed t.w f.toNat (choosesHigh m1 m2) ∧
      t.events = s.events ++ flushAndRead w1 m1 ++ flushAndRead w2 m2 ++ flushAndRead t.w m3 ∧
      t.rd = m3 ∧ decodesTo t.st m3 (choosesHigh m1 m2) ∧ t.answers = rest

/-- R186: SET_STATION on a tunable frequency completes for every answer of the oracle, with OK, NOT_READY or COMM_ERROR; it
writes only MUTE, SM, the tuning bits, Rd, rdValid, S and res; unless it ends in COMM_ERROR, W is committed to f under one
side. -/
def Obligations.SetStationFrame : Prop :=
  ∀ (f : Freq) (s : State), inTunableRange f.toNat → ∃ t, exec (.setStation f) s = .next t ∧
    (t.res = 0#4 ∨ t.res = 2#4 ∨ t.res = 3#4) ∧ busFrame s t ∧ mute t.w = false ∧ searchMode t.w = false ∧
    onlyBits stationBits s.w t.w ∧ (t.res ≠ 3#4 → ∃ v, committed t.w f.toNat v)

/-- R188: a search step whose next frequency leaves the band of W completes with STOP: P goes to minF (UP) or maxF (DOWN),
direction and level are recorded, and there is no bus event. -/
def Obligations.SearchStepWrapsAtTheBandEdge : Prop :=
  ∀ (up : Bool) (lvl : Level) (cap : Bool) (s : State), wraps up s →
    ∃ t, exec (.searchStep up lvl cap) s = .next t ∧ t = { s with w := t.w, p := t.p, res := 5#4 } ∧
      (t.p.toNat : Int) = (if up then minHz (band s.w) else maxHz (band s.w)) ∧
      searchUp t.w = up ∧ (stopCode t.w).toNat = codeOf lvl ∧ onlyBits recordBits s.w t.w

/-- R187, R189, R191, R201: a search step whose next frequency is in the band completes for every answer of the oracle, with
COMM_ERROR, PENDING or COMPLETE; P advances by 100 kHz, direction and level are recorded, L grows by P exactly when the step
is COMPLETE with capture, and the scan registers, C and resSide are as before. -/
def Obligations.SearchStepProbesInBand : Prop :=
  ∀ (up : Bool) (lvl : Level) (cap : Bool) (s : State), ¬ wraps up s →
    ∃ t, exec (.searchStep up lvl cap) s = .next t ∧ (t.res = 3#4 ∨ t.res = 4#4 ∨ t.res = 6#4) ∧
      busFrame s { t with p := s.p, l := s.l } ∧ (t.p.toNat : Int) = probeHz up s ∧
      searchUp t.w = up ∧ (stopCode t.w).toNat = codeOf lvl ∧
      onlyBits (fun j b => stationBits j b || recordBits j b) s.w t.w ∧
      t.l = (if t.res = 6#4 ∧ cap = true then s.l ++ [t.p] else s.l) ∧
      (t.res = 4#4 → mute t.w = mute s.w ∧ searchMode t.w = searchMode s.w ∧ ∃ v, committed t.w t.p.toNat v) ∧
      (t.res = 6#4 → mute t.w = false ∧ searchMode t.w = false ∧ ∃ v, committed t.w t.p.toNat v)

/-- R183, R187: when the three reads of the probe give settled frames, the step is PENDING if the third frame is not
acceptable at the level. -/
def Obligations.SearchStepLeavesAnUnacceptedStationPending : Prop :=
  ∀ (up : Bool) (lvl : Level) (cap : Bool) (s : State) (m1 m2 m3 : Image) (rest : List ReadAnswer), ¬ wraps up s →
    s.answers = .bytes m1 :: .bytes m2 :: .bytes m3 :: rest → settled m1 → settled m2 → settled m3 →
    ¬ acceptable m3 (codeOf lvl) →
    ∃ t, exec (.searchStep up lvl cap) s = .next t ∧ t.res = 4#4 ∧ t.l = s.l ∧ t.rd = m3 ∧
      committed t.w (probeHz up s) (choosesHigh m1 m2) ∧ decodesTo t.st m3 (choosesHigh m1 m2) ∧ t.answers = rest

/-- R187, R190, R191: when the third frame of the probe is acceptable at the level, the step re-tunes with setStation and is
COMPLETE; P is appended to L exactly with capture, and the status left is that of setStation's last read. -/
def Obligations.SearchStepCompletesOnAnAcceptedStation : Prop :=
  ∀ (up : Bool) (lvl : Level) (cap : Bool) (s : State) (m1 m2 m3 m4 m5 m6 : Image) (rest : List ReadAnswer),
    ¬ wraps up s →
    s.answers = .bytes m1 :: .bytes m2 :: .bytes m3 :: .bytes m4 :: .bytes m5 :: .bytes m6 :: rest →
    settled m1 → settled m2 → settled m3 → settled m4 → settled m5 → settled m6 → acceptable m3 (codeOf lvl) →
    ∃ t, exec (.searchStep up lvl cap) s = .next t ∧ t.res = 6#4 ∧ t.l = (if cap then s.l ++ [t.p] else s.l) ∧
      (t.p.toNat : Int) = probeHz up s ∧ mute t.w = false ∧ searchMode t.w = false ∧
      committed t.w (probeHz up s) (choosesHigh m4 m5) ∧ t.rd = m6 ∧ decodesTo t.st m6 (choosesHigh m4 m5) ∧
      writes t.events = writes s.events + 6 ∧ t.answers = rest

/-- R202: a NOT_READY commit read accepts nothing: the search step is PENDING, and the scan step goes on to the next
frequency, whatever stale values S holds. -/
def Obligations.NotReadyNeverAccepts : Prop :=
  ∀ (s : State) (m1 m2 z : Image) (rest : List ReadAnswer),
    s.answers = .bytes m1 :: .bytes m2 :: (List.replicate 5 (.bytes z) ++ rest) → settled m1 → settled m2 →
    ¬ settled z →
    (∀ up lvl cap, ¬ wraps up s → ∃ t, exec (.searchStep up lvl cap) s = .next t ∧ t.res = 4#4 ∧ t.l = s.l) ∧
    (s.scanActive = true → scanHz s ≤ maxHz (band s.w) → ∃ t, exec .scanStep s = .next t ∧
      (t.res = 7#4 ∨ t.res = 8#4) ∧ t.l = s.l ∧ t.scanIdx = s.scanIdx + 1#16)

/-- R195: SCAN_BEGIN completes: it empties L, sets C, scanIdx, scanActive and scanCode, records direction UP and the level,
and writes nothing else but res. -/
def Obligations.ScanBeginStartsAnEmptyScan : Prop :=
  ∀ (lvl : Level) (s : State), ∃ t, exec (.scanBegin lvl) s = .next t ∧
    t = { s with
      w := t.w, l := [], c := 0, scanCode := t.scanCode, scanIdx := 0#16, scanActive := true, res := 0#4 } ∧
    t.scanCode.toNat = codeOf lvl ∧ searchUp t.w = true ∧ stopCode t.w = t.scanCode ∧ onlyBits recordBits s.w t.w

/-- R196, R274: SCAN_STEP with no active scan is SCAN_IDLE; with the frequency of the index above the band it is SCAN_DONE at
entry and clears scanActive; neither emits a bus event or writes anything else. -/
def Obligations.ScanStepWithoutAFrequency : Prop :=
  ∀ s : State,
    (s.scanActive = false → exec .scanStep s = .next { s with res := 9#4 }) ∧
    (s.scanActive = true → scanHz s > maxHz (band s.w) →
      exec .scanStep s = .next { s with scanActive := false, res := 8#4 })

/-- R196, R183: when the three reads of an examined scan step give settled frames, the step completes: the frequency is
appended exactly when the third frame is acceptable at scanCode, the index advances, and the scan ends exactly after the last
frequency of the band. -/
def Obligations.ScanStepExaminesOneFrequency : Prop :=
  ∀ (s : State) (m1 m2 m3 : Image) (rest : List ReadAnswer), s.scanActive = true →
    scanHz s ≤ maxHz (band s.w) → s.answers = .bytes m1 :: .bytes m2 :: .bytes m3 :: rest →
    settled m1 → settled m2 → settled m3 →
    ∃ t, exec .scanStep s = .next t ∧ committed t.w (scanHz s) (choosesHigh m1 m2) ∧
      decodesTo t.st m3 (choosesHigh m1 m2) ∧ t.scanIdx = s.scanIdx + 1#16 ∧
      (acceptable m3 s.scanCode.toNat → ∃ f : Freq, (f.toNat : Int) = scanHz s ∧ t.l = s.l ++ [f]) ∧
      (¬ acceptable m3 s.scanCode.toNat → t.l = s.l) ∧
      (scanHz s + 100000 ≤ maxHz (band s.w) → t.res = 7#4 ∧ t.scanActive = true) ∧
      (scanHz s + 100000 > maxHz (band s.w) → t.res = 8#4 ∧ t.scanActive = false) ∧ t.answers = rest

/-- R196, R201: an examined scan step completes for every answer of the oracle, with COMM_ERROR, SCAN_MORE or SCAN_DONE; it
writes only the tuning bits, Rd, rdValid, S, L, scanIdx, scanActive and res; COMM_ERROR clears scanActive and appends
nothing. -/
def Obligations.ScanStepFrame : Prop :=
  ∀ s : State, s.scanActive = true → scanHz s ≤ maxHz (band s.w) →
    ∃ t, exec .scanStep s = .next t ∧ (t.res = 3#4 ∨ t.res = 7#4 ∨ t.res = 8#4) ∧
      busFrame s { t with l := s.l, scanIdx := s.scanIdx, scanActive := s.scanActive } ∧
      onlyBits tuneBits s.w t.w ∧
      (t.res = 3#4 → t.scanActive = false ∧ t.l = s.l ∧ t.scanIdx = s.scanIdx) ∧
      (t.res ≠ 3#4 → t.scanIdx = s.scanIdx + 1#16 ∧ t.scanActive = decide (t.res = 7#4) ∧
        (t.l = s.l ∨ ∃ f : Freq, (f.toNat : Int) = scanHz s ∧ t.l = s.l ++ [f]))

/-- R197, R198: SCAN_BAND, issued with no other command between its steps, runs exactly 206 SCAN_STEPs in band 0 and 151 in
band 1 unless a COMM_ERROR ends it: after fewer it is still SCAN_MORE, and then it is SCAN_DONE, with C = 0 and the preset
list an increasing list of frequencies of the band's grid. -/
def Obligations.ScanBandExaminesTheWholeBand : Prop :=
  ∀ (lvl : Level) (s : State) (n : Nat), 0 < n → n ≤ (if band s.w then 151 else 206) →
    ∃ t, issuePseudo n (.scanBand lvl) s = .next t ∧
      (t.res = 3#4 ∨
        t.res = (if n = (if band s.w then 151 else 206) then 8#4 else 7#4) ∧ t.scanIdx.toNat = n ∧ t.c = 0 ∧
          t.l.Pairwise (fun f g => f.toNat < g.toNat) ∧
          ∀ f ∈ t.l, ∃ j < n, (f.toNat : Int) = minHz (band s.w) + (j : Int) * 100000)

/-- R194: SEARCH_STEPs issued in one direction from a P in the band while the result is PENDING end after at most SCAN_COUNT
steps, in COMPLETE, COMM_ERROR or STOP. -/
def Obligations.SearchLoopEnds : Prop :=
  ∀ (up : Bool) (lvl : Level) (cap : Bool) (s : State), minHz (band s.w) ≤ s.p.toNat → (s.p.toNat : Int) ≤ maxHz (band s.w) →
    ∃ t, issueWhile (.searchStep up lvl cap) .pending (if band s.w then 151 else 206) s = .next t ∧
      (t.res = 3#4 ∨ t.res = 5#4 ∨ t.res = 6#4)

/-- R188, for every configuration with well-formed bands (the bounds of band 1 are OPEN, 92_eei_decisions.md D10): a search
step that is not a RANGE_FAULT leaves P inside the bounds of the band in W. -/
def Obligations.SearchKeepsProbeInBandForEveryConfig : Prop :=
  ∀ k : Config, k.WellFormed = true → ∀ (up : Bool) (lvl : Level) (cap : Bool) (s : State),
    ∃ t, searchStepWith k up lvl cap s = .next t ∧
      (t.res = 11#4 ∨ (bounds k s.w).1 ≤ t.p.toNat ∧ (t.p.toNat : Int) ≤ (bounds k s.w).2)

/-! ## Presets -/

/-- R221: PRESET_NEXT. -/
def Obligations.PresetNextMovesTheCursorForward : Prop :=
  ∀ s : State,
    (s.l = [] → exec .presetNext s = .next { s with res := 10#4 }) ∧
    (s.l ≠ [] → fits (entry s.l ((s.c + 1) % s.l.length)) (injection s.w) → ∃ t, exec .presetNext s = .next t ∧
      t = { s with w := t.w, c := (s.c + 1) % s.l.length, res := 0#4, events := t.events } ∧
      committed t.w (entry s.l ((s.c + 1) % s.l.length)) (injection s.w) ∧ onlyBits pllBits s.w t.w ∧
      t.events = s.events ++ [.write 0x60#7 t.w, .settle 35]) ∧
    (s.l ≠ [] → ¬ fits (entry s.l ((s.c + 1) % s.l.length)) (injection s.w) →
      exec .presetNext s = .next { s with res := 11#4 })

/-- R222: PRESET_PREV. -/
def Obligations.PresetPrevMovesTheCursorBack : Prop :=
  ∀ s : State,
    (s.l = [] → exec .presetPrev s = .next { s with res := 10#4 }) ∧
    (s.l ≠ [] → fits (entry s.l ((s.c + s.l.length - 1) % s.l.length)) (injection s.w) →
      ∃ t, exec .presetPrev s = .next t ∧
        t = { s with w := t.w, c := (s.c + s.l.length - 1) % s.l.length, res := 0#4, events := t.events } ∧
        committed t.w (entry s.l ((s.c + s.l.length - 1) % s.l.length)) (injection s.w) ∧ onlyBits pllBits s.w t.w ∧
        t.events = s.events ++ [.write 0x60#7 t.w, .settle 35]) ∧
    (s.l ≠ [] → ¬ fits (entry s.l ((s.c + s.l.length - 1) % s.l.length)) (injection s.w) →
      exec .presetPrev s = .next { s with res := 11#4 })

/-- R223: PRESET_DELETE, from a cursor inside the list (44_presets.md R225): EMPTY on an empty list; the last entry goes with no
bus event; otherwise the entry goes, the cursor is clamped, and setStation re-tunes to the entry now at the cursor. -/
def Obligations.PresetDeleteRemovesAndRetunes : Prop :=
  ∀ s : State, cursorOk s = true →
    (s.l = [] → exec .presetDelete s = .next { s with res := 10#4 }) ∧
    (s.l.length = 1 → exec .presetDelete s = .next { s with l := [], c := 0, res := 0#4 }) ∧
    (2 ≤ s.l.length → inTunableRange (entry (afterDelete s).1 (afterDelete s).2) →
      ∃ t, exec .presetDelete s = .next t ∧ (t.res = 0#4 ∨ t.res = 2#4 ∨ t.res = 3#4) ∧
        busFrame s { t with l := s.l, c := s.c } ∧ t.l = (afterDelete s).1 ∧ t.c = (afterDelete s).2 ∧
        mute t.w = false ∧ searchMode t.w = false ∧ onlyBits stationBits s.w t.w ∧
        (t.res ≠ 3#4 → ∃ v, committed t.w (entry (afterDelete s).1 (afterDelete s).2) v)) ∧
    (2 ≤ s.l.length → ¬ inTunableRange (entry (afterDelete s).1 (afterDelete s).2) →
      exec .presetDelete s = .next { s with res := 11#4 })

/-- R226, R246, for every capacity (PRESET_CAP is OPEN, D25): at a full list an accepted scan step ends in PRESET_FULL, with
the scan over, the index where it was and L unchanged; below the capacity the frequency is appended. -/
def Obligations.FullPresetListEndsTheScan : Prop :=
  ∀ (n : Nat) (s : State) (m1 m2 m3 : Image) (rest : List ReadAnswer), s.scanActive = true →
    scanHz s ≤ maxHz (band s.w) → s.answers = .bytes m1 :: .bytes m2 :: .bytes m3 :: rest →
    settled m1 → settled m2 → settled m3 → acceptable m3 s.scanCode.toNat →
    (s.l.length = n → ∃ t, scanStepWith { params with presetCap := some n } s = .next t ∧ t.res = 13#4 ∧
      t.scanActive = false ∧ t.scanIdx = s.scanIdx ∧ t.l = s.l) ∧
    (s.l.length < n → ∃ t, scanStepWith { params with presetCap := some n } s = .next t ∧
      (t.res = 7#4 ∨ t.res = 8#4) ∧ ∃ f : Freq, (f.toNat : Int) = scanHz s ∧ t.l = s.l ++ [f])

/-- R187, R226, R246, for every capacity (PRESET_CAP is OPEN, D25): at a full list an accepted search step with capture ends in
PRESET_FULL, with the station tuned and unmuted and L unchanged; without capture it is COMPLETE with L unchanged, and below
the capacity it is COMPLETE with P appended. -/
def Obligations.FullPresetListEndsTheSearchStep : Prop :=
  ∀ (n : Nat) (up : Bool) (lvl : Level) (s : State) (m1 m2 m3 m4 m5 m6 : Image) (rest : List ReadAnswer), ¬ wraps up s →
    s.answers = .bytes m1 :: .bytes m2 :: .bytes m3 :: .bytes m4 :: .bytes m5 :: .bytes m6 :: rest →
    settled m1 → settled m2 → settled m3 → settled m4 → settled m5 → settled m6 → acceptable m3 (codeOf lvl) →
    (s.l.length = n →
      (∃ t, searchStepWith { params with presetCap := some n } up lvl true s = .next t ∧ t.res = 13#4 ∧ t.l = s.l ∧
        (t.p.toNat : Int) = probeHz up s ∧ mute t.w = false ∧ searchMode t.w = false ∧
        committed t.w (probeHz up s) (choosesHigh m4 m5) ∧ decodesTo t.st m6 (choosesHigh m4 m5) ∧ t.rd = m6 ∧
        writes t.events = writes s.events + 6 ∧ t.answers = rest) ∧
      ∃ t, searchStepWith { params with presetCap := some n } up lvl false s = .next t ∧ t.res = 6#4 ∧ t.l = s.l) ∧
    (s.l.length < n → ∃ t, searchStepWith { params with presetCap := some n } up lvl true s = .next t ∧ t.res = 6#4 ∧
      t.l = s.l ++ [t.p] ∧ (t.p.toNat : Int) = probeHz up s)

/-- R225: after every command an empty list has cursor 0, and a nonempty one a cursor inside it. -/
def Obligations.EveryCommandKeepsTheCursorValid : Prop :=
  ∀ (i : Instr) (s t : State), (s.l = [] → s.c = 0) → (s.l ≠ [] → s.c < s.l.length) → exec i s = .next t →
    (t.l = [] → t.c = 0) ∧ (t.l ≠ [] → t.c < t.l.length)

/-! ## Whole-machine rules -/

/-- R37: only SEARCH_STEP writes P, and P is 87500000 at reset. -/
def Obligations.OnlySearchStepWritesTheProbe : Prop :=
  State.reset.p.toNat = 87500000 ∧
  ∀ (i : Instr) (s t : State), exec i s = .next t → t.p ≠ s.p → ∃ up lvl cap, i = .searchStep up lvl cap

/-- R38: only SCAN_BEGIN and SCAN_STEP write the scan registers, which are 0 at reset. -/
def Obligations.OnlyScanCommandsWriteTheScanRegisters : Prop :=
  (State.reset.scanActive = false ∧ State.reset.scanIdx = 0#16 ∧ State.reset.scanCode = 0#2) ∧
  ∀ (i : Instr) (s t : State), exec i s = .next t →
    (t.scanActive ≠ s.scanActive ∨ t.scanIdx ≠ s.scanIdx ∨ t.scanCode ≠ s.scanCode) →
    i = .scanStep ∨ ∃ lvl, i = .scanBegin lvl

/-- R39: what each command does to L. SCAN_BEGIN empties it. SCAN_STEP appends the examined frequency at the end exactly when
the step advanced the index and its last frame is settled and acceptable at scanCode, and else leaves L. SEARCH_STEP appends P
exactly when it is COMPLETE with capture, and else leaves L. PRESET_DELETE removes the entry at the cursor unless it is a
RANGE_FAULT. Every other command leaves L. L is empty at reset. -/
def Obligations.WritersOfThePresetList : Prop :=
  State.reset.l = [] ∧ ∀ (i : Instr) (s t : State), exec i s = .next t → presetsAfter i s t

/-- R41: only OPTIMIZE writes resSide; res and resSide are 0 at reset. -/
def Obligations.OnlyOptimizeWritesTheResultSide : Prop :=
  (State.reset.res = 0#4 ∧ State.reset.resSide = false) ∧
  ∀ (i : Instr) (s t : State), exec i s = .next t → t.resSide ≠ s.resSide → ∃ f, i = .optimize f

/-- R125: XTAL, PLLREF and W[4][5:0] hold their constants at reset, and no command writes them, in any state. -/
def Obligations.NoCommandWritesTheConstantBits : Prop :=
  (xtal State.reset.w = true ∧ pllRef State.reset.w = false ∧ getField State.reset.w.b4 0 6 = 0#6) ∧
  ∀ (i : Instr) (s t : State), exec i s = .next t →
    xtal t.w = xtal s.w ∧ pllRef t.w = pllRef s.w ∧ getField t.w.b4 0 6 = getField s.w.b4 0 6

/-- R286, R292: the bus events of a command. The history only grows; each Write has its Settle; no command exceeds its limits;
and a command that does not end in COMM_ERROR has the Write count of the table and a Read count in its range. -/
def Obligations.BusEventsPerCommand : Prop :=
  ∀ (i : Instr) (s t : State), exec i s = .next t → ∃ h, t.events = s.events ++ h ∧ settles h = writes h ∧
    writes h ≤ (busLimits i).1 ∧ reads h ≤ (busLimits i).2 ∧
    (t.res ≠ 3#4 → writes h = (busCounts i s t).1 ∧ (busCounts i s t).2.1 ≤ reads h ∧ reads h ≤ (busCounts i s t).2.2)

/-- R51, R61, R283, R285: an invariant of every step: in the history every Write and Read goes to CHIP_ADDR, every Write is
followed at once by Settle(35), every Read asks for five bytes, and every image sent holds the constants of R22. -/
def Obligations.EveryStepKeepsTheBusDiscipline : Prop :=
  ∀ s t : State, imageConst s.w = true → historyOk params s.events = true → historyImages s.events = true →
    step s = .next t →
    imageConst t.w = true ∧ historyOk params t.events = true ∧ historyImages t.events = true

/-- R45 and what R37, R39 and R241 add to it: an invariant of every step. -/
def Obligations.EveryStepKeepsTheInvariant : Prop := ∀ s t : State, Inv s → step s = .next t → Inv t

/-- The invariant and the bus discipline hold at reset (R45, R271). -/
def Obligations.ResetMeetsTheInvariants : Prop :=
  Inv State.reset ∧ historyOk params State.reset.events = true ∧ historyImages State.reset.events = true

/-- R270, R271: the state after reset, field by field, and its views; under any well-formed configuration P is BAND0_MIN_HZ. -/
def Obligations.ResetLeavesTheStatedValues : Prop :=
  (∀ k : Config, k.WellFormed = true → ((State.resetWith k).p.toNat : Int) = k.band0MinHz) ∧
  State.reset.w = ⟨0x00#8, 0x00#8, 0x00#8, 0x10#8, 0x00#8⟩ ∧ State.reset.rd = ⟨0x00#8, 0x00#8, 0x00#8, 0x00#8, 0x00#8⟩ ∧
  State.reset.rdValid = false ∧
  State.reset.st = ⟨false, false, false, false, 0#7, 0#4, false, 0#32⟩ ∧ State.reset.p = 87500000#27 ∧
  State.reset.scanActive = false ∧ State.reset.scanIdx = 0#16 ∧ State.reset.scanCode = 0#2 ∧ State.reset.l = [] ∧
  State.reset.c = 0 ∧ State.reset.res = 0#4 ∧ State.reset.resSide = false ∧ State.reset.events = [] ∧
  (observe State.reset).views =
    ⟨false, false, false, false, false, false, false, .low, false, 87500000, 108000000, false, 0#2⟩
end

