-- ==== Sys2Proof/Laws/Bits.lean ====
section
/-! SUPPORT. The bit-field laws of the images: reading a bit or a field after a field write (00_scope.md R11). -/

namespace Sys2Proof.Machine

/-- A field write changes exactly the bits of the field. -/
theorem getLsbD_putField (b : Byte) (lo : Nat) {n : Nat} (v : BitVec n) (i : Nat) (hi : i < 8) :
    (putField b lo v).getLsbD i = if lo ≤ i ∧ i < lo + n then v.getLsbD (i - lo) else b.getLsbD i := by
  simp only [putField, BitVec.getLsbD_or, BitVec.getLsbD_and, BitVec.getLsbD_not, BitVec.getLsbD_shiftLeft,
    BitVec.getLsbD_setWidth, BitVec.getLsbD_allOnes, hi, decide_true, Bool.true_and]
  by_cases h1 : i < lo
  · simp [h1, Nat.not_le.mpr h1]
  · have h8 : i - lo < 8 := by omega
    by_cases h2 : i < lo + n
    · have : i - lo < n := by omega
      simp [h1, h2, h8, this, Nat.not_lt.mp h1]
    · have : ¬ i - lo < n := by omega
      rw [BitVec.getLsbD_of_ge v (i - lo) (by omega)]
      simp [h1, h2, h8, this]

/-- A one-bit write changes exactly that bit. -/
theorem getLsbD_putBit (b : Byte) (bit : Nat) (v : Bool) (i : Nat) (hi : i < 8) :
    (putBit b bit v).getLsbD i = if i = bit then v else b.getLsbD i := by
  rw [putBit, getLsbD_putField b bit _ i hi]
  by_cases h : i = bit
  · subst h; simp
  · rw [if_neg (by omega), if_neg h]

/-- Bit `i` of a byte after a field write. -/
theorem getElem_putField (b : Byte) (lo : Nat) {n : Nat} (v : BitVec n) (i : Nat) (hi : i < 8) :
    (putField b lo v)[i] = if lo ≤ i ∧ i < lo + n then v.getLsbD (i - lo) else b[i] := by
  rw [← BitVec.getLsbD_eq_getElem hi, getLsbD_putField b lo v i hi, BitVec.getLsbD_eq_getElem (x := b) hi]

/-- Bit `i` of a byte after a one-bit write. -/
@[simp] theorem getElem_putBit (b : Byte) (bit : Nat) (v : Bool) (i : Nat) (hi : i < 8) :
    (putBit b bit v)[i] = if i = bit then v else b[i] := by
  rw [← BitVec.getLsbD_eq_getElem hi, getLsbD_putBit b bit v i hi, BitVec.getLsbD_eq_getElem (x := b) hi]

/-- Reading back the field that was written. -/
theorem extract_putField (b : Byte) (lo : Nat) {n : Nat} (v : BitVec n) (h : lo + n ≤ 8) :
    (putField b lo v).extractLsb' lo n = v := by
  ext i hi
  rw [BitVec.getElem_extractLsb', getLsbD_putField b lo v (lo + i) (by omega)]
  simp [hi]

/-- A field write keeps a field that lies apart from it. -/
theorem extract_putField_apart (b : Byte) (lo : Nat) {n : Nat} (v : BitVec n) (lo' n' : Nat) (h : lo' + n' ≤ 8)
    (apart : lo' + n' ≤ lo ∨ lo + n ≤ lo') : (putField b lo v).extractLsb' lo' n' = b.extractLsb' lo' n' := by
  ext i hi
  rw [BitVec.getElem_extractLsb', BitVec.getElem_extractLsb', getLsbD_putField b lo v (lo' + i) (by omega)]
  rw [if_neg (by omega)]

/-- The later of two writes to one field stands. -/
theorem putField_putField (b : Byte) (lo : Nat) {n : Nat} (v v' : BitVec n) :
    putField (putField b lo v) lo v' = putField b lo v' := by
  ext i hi
  rw [getElem_putField _ _ _ _ hi, getElem_putField _ _ _ _ hi, getElem_putField _ _ _ _ hi]
  split <;> rfl

end Sys2Proof.Machine
end

