-- ==== Sys2Proof/Laws/Image.lean ====
section
/-! SUPPORT. What the field writes that the shared procedures use do to every field of the write image
(30_encoding.md R70): the written field takes the value, every other field keeps its own. -/

namespace Sys2Proof.Machine

@[simp] theorem mute_putPll (w : Image) (p : Pll) : mute (putPll w p) = mute w := by
  simp [mute, putPll, getElem_putField]
@[simp] theorem searchMode_putPll (w : Image) (p : Pll) : searchMode (putPll w p) = searchMode w := by
  simp [searchMode, putPll, getElem_putField]
@[simp] theorem pllWord_putPll (w : Image) (p : Pll) : pllWord (putPll w p) = p := by
  rw [pllWord, putPll]
  simp only [extract_putField _ 0 _ (Nat.le_of_lt (by omega : 0 + 6 < 8))]
  exact BitVec.extractLsb'_append_extractLsb'_eq_extractLsb' (by omega) |>.trans (BitVec.extractLsb'_eq_self)
@[simp] theorem searchUp_putPll (w : Image) (p : Pll) : searchUp (putPll w p) = searchUp w := rfl
@[simp] theorem stopCode_putPll (w : Image) (p : Pll) : stopCode (putPll w p) = stopCode w := rfl
@[simp] theorem injection_putPll (w : Image) (p : Pll) : injection (putPll w p) = injection w := rfl
@[simp] theorem mono_putPll (w : Image) (p : Pll) : mono (putPll w p) = mono w := rfl
@[simp] theorem muteRight_putPll (w : Image) (p : Pll) : muteRight (putPll w p) = muteRight w := rfl
@[simp] theorem muteLeft_putPll (w : Image) (p : Pll) : muteLeft (putPll w p) = muteLeft w := rfl
@[simp] theorem swp1_putPll (w : Image) (p : Pll) : swp1 (putPll w p) = swp1 w := rfl
@[simp] theorem b3_putPll (w : Image) (p : Pll) : (putPll w p).b3 = w.b3 := rfl
@[simp] theorem b4_putPll (w : Image) (p : Pll) : (putPll w p).b4 = w.b4 := rfl

@[simp] theorem mute_putInjection (w : Image) (v : Bool) : mute (putInjection w v) = mute w := rfl
@[simp] theorem searchMode_putInjection (w : Image) (v : Bool) : searchMode (putInjection w v) = searchMode w := rfl
@[simp] theorem pllWord_putInjection (w : Image) (v : Bool) : pllWord (putInjection w v) = pllWord w := rfl
@[simp] theorem searchUp_putInjection (w : Image) (v : Bool) : searchUp (putInjection w v) = searchUp w := by
  simp [searchUp, putInjection]
@[simp] theorem stopCode_putInjection (w : Image) (v : Bool) : stopCode (putInjection w v) = stopCode w := by
  exact extract_putField_apart _ _ _ _ _ (by omega) (by omega)
@[simp] theorem injection_putInjection (w : Image) (v : Bool) : injection (putInjection w v) = v := by
  simp [injection, putInjection]
@[simp] theorem mono_putInjection (w : Image) (v : Bool) : mono (putInjection w v) = mono w := by
  simp [mono, putInjection]
@[simp] theorem muteRight_putInjection (w : Image) (v : Bool) : muteRight (putInjection w v) = muteRight w := by
  simp [muteRight, putInjection]
@[simp] theorem muteLeft_putInjection (w : Image) (v : Bool) : muteLeft (putInjection w v) = muteLeft w := by
  simp [muteLeft, putInjection]
@[simp] theorem swp1_putInjection (w : Image) (v : Bool) : swp1 (putInjection w v) = swp1 w := by
  simp [swp1, putInjection]
@[simp] theorem b3_putInjection (w : Image) (v : Bool) : (putInjection w v).b3 = w.b3 := rfl
@[simp] theorem b4_putInjection (w : Image) (v : Bool) : (putInjection w v).b4 = w.b4 := rfl

@[simp] theorem mute_putMute (w : Image) (v : Bool) : mute (putMute w v) = v := by
  simp [mute, putMute]
@[simp] theorem searchMode_putMute (w : Image) (v : Bool) : searchMode (putMute w v) = searchMode w := by
  simp [searchMode, putMute]
@[simp] theorem pllWord_putMute (w : Image) (v : Bool) : pllWord (putMute w v) = pllWord w := by
  exact congrArg (· ++ w.b1) (extract_putField_apart _ _ _ _ _ (by omega) (by omega))
@[simp] theorem searchUp_putMute (w : Image) (v : Bool) : searchUp (putMute w v) = searchUp w := rfl
@[simp] theorem stopCode_putMute (w : Image) (v : Bool) : stopCode (putMute w v) = stopCode w := rfl
@[simp] theorem injection_putMute (w : Image) (v : Bool) : injection (putMute w v) = injection w := rfl
@[simp] theorem mono_putMute (w : Image) (v : Bool) : mono (putMute w v) = mono w := rfl
@[simp] theorem muteRight_putMute (w : Image) (v : Bool) : muteRight (putMute w v) = muteRight w := rfl
@[simp] theorem muteLeft_putMute (w : Image) (v : Bool) : muteLeft (putMute w v) = muteLeft w := rfl
@[simp] theorem swp1_putMute (w : Image) (v : Bool) : swp1 (putMute w v) = swp1 w := rfl
@[simp] theorem b3_putMute (w : Image) (v : Bool) : (putMute w v).b3 = w.b3 := rfl
@[simp] theorem b4_putMute (w : Image) (v : Bool) : (putMute w v).b4 = w.b4 := rfl

@[simp] theorem mute_putSearchMode (w : Image) (v : Bool) : mute (putSearchMode w v) = mute w := by
  simp [mute, putSearchMode]
@[simp] theorem searchMode_putSearchMode (w : Image) (v : Bool) : searchMode (putSearchMode w v) = v := by
  simp [searchMode, putSearchMode]
@[simp] theorem pllWord_putSearchMode (w : Image) (v : Bool) : pllWord (putSearchMode w v) = pllWord w := by
  exact congrArg (· ++ w.b1) (extract_putField_apart _ _ _ _ _ (by omega) (by omega))
@[simp] theorem searchUp_putSearchMode (w : Image) (v : Bool) : searchUp (putSearchMode w v) = searchUp w := rfl
@[simp] theorem stopCode_putSearchMode (w : Image) (v : Bool) : stopCode (putSearchMode w v) = stopCode w := rfl
@[simp] theorem injection_putSearchMode (w : Image) (v : Bool) : injection (putSearchMode w v) = injection w := rfl
@[simp] theorem mono_putSearchMode (w : Image) (v : Bool) : mono (putSearchMode w v) = mono w := rfl
@[simp] theorem muteRight_putSearchMode (w : Image) (v : Bool) : muteRight (putSearchMode w v) = muteRight w := rfl
@[simp] theorem muteLeft_putSearchMode (w : Image) (v : Bool) : muteLeft (putSearchMode w v) = muteLeft w := rfl
@[simp] theorem swp1_putSearchMode (w : Image) (v : Bool) : swp1 (putSearchMode w v) = swp1 w := rfl
@[simp] theorem b3_putSearchMode (w : Image) (v : Bool) : (putSearchMode w v).b3 = w.b3 := rfl
@[simp] theorem b4_putSearchMode (w : Image) (v : Bool) : (putSearchMode w v).b4 = w.b4 := rfl

@[simp] theorem mute_putSearchUp (w : Image) (v : Bool) : mute (putSearchUp w v) = mute w := rfl
@[simp] theorem searchMode_putSearchUp (w : Image) (v : Bool) : searchMode (putSearchUp w v) = searchMode w := rfl
@[simp] theorem pllWord_putSearchUp (w : Image) (v : Bool) : pllWord (putSearchUp w v) = pllWord w := rfl
@[simp] theorem searchUp_putSearchUp (w : Image) (v : Bool) : searchUp (putSearchUp w v) = v := by
  simp [searchUp, putSearchUp]
@[simp] theorem stopCode_putSearchUp (w : Image) (v : Bool) : stopCode (putSearchUp w v) = stopCode w := by
  exact extract_putField_apart _ _ _ _ _ (by omega) (by omega)
@[simp] theorem injection_putSearchUp (w : Image) (v : Bool) : injection (putSearchUp w v) = injection w := by
  simp [injection, putSearchUp]
@[simp] theorem mono_putSearchUp (w : Image) (v : Bool) : mono (putSearchUp w v) = mono w := by
  simp [mono, putSearchUp]
@[simp] theorem muteRight_putSearchUp (w : Image) (v : Bool) : muteRight (putSearchUp w v) = muteRight w := by
  simp [muteRight, putSearchUp]
@[simp] theorem muteLeft_putSearchUp (w : Image) (v : Bool) : muteLeft (putSearchUp w v) = muteLeft w := by
  simp [muteLeft, putSearchUp]
@[simp] theorem swp1_putSearchUp (w : Image) (v : Bool) : swp1 (putSearchUp w v) = swp1 w := by
  simp [swp1, putSearchUp]
@[simp] theorem b3_putSearchUp (w : Image) (v : Bool) : (putSearchUp w v).b3 = w.b3 := rfl
@[simp] theorem b4_putSearchUp (w : Image) (v : Bool) : (putSearchUp w v).b4 = w.b4 := rfl

@[simp] theorem mute_putStopCode (w : Image) (x : StopCode) : mute (putStopCode w x) = mute w := rfl
@[simp] theorem searchMode_putStopCode (w : Image) (x : StopCode) : searchMode (putStopCode w x) = searchMode w := rfl
@[simp] theorem pllWord_putStopCode (w : Image) (x : StopCode) : pllWord (putStopCode w x) = pllWord w := rfl
@[simp] theorem searchUp_putStopCode (w : Image) (x : StopCode) : searchUp (putStopCode w x) = searchUp w := by
  simp [searchUp, putStopCode, getElem_putField]
@[simp] theorem stopCode_putStopCode (w : Image) (x : StopCode) : stopCode (putStopCode w x) = x := by
  exact extract_putField _ _ _ (by omega)
@[simp] theorem injection_putStopCode (w : Image) (x : StopCode) : injection (putStopCode w x) = injection w := by
  simp [injection, putStopCode, getElem_putField]
@[simp] theorem mono_putStopCode (w : Image) (x : StopCode) : mono (putStopCode w x) = mono w := by
  simp [mono, putStopCode, getElem_putField]
@[simp] theorem muteRight_putStopCode (w : Image) (x : StopCode) : muteRight (putStopCode w x) = muteRight w := by
  simp [muteRight, putStopCode, getElem_putField]
@[simp] theorem muteLeft_putStopCode (w : Image) (x : StopCode) : muteLeft (putStopCode w x) = muteLeft w := by
  simp [muteLeft, putStopCode, getElem_putField]
@[simp] theorem swp1_putStopCode (w : Image) (x : StopCode) : swp1 (putStopCode w x) = swp1 w := by
  simp [swp1, putStopCode, getElem_putField]
@[simp] theorem b3_putStopCode (w : Image) (x : StopCode) : (putStopCode w x).b3 = w.b3 := rfl
@[simp] theorem b4_putStopCode (w : Image) (x : StopCode) : (putStopCode w x).b4 = w.b4 := rfl

end Sys2Proof.Machine
end

