-- ==== Sys2Proof/Laws/State.lean ====
section
/-! SUPPORT. What each named update of the state does to each field, true by rfl, so that no proof unfolds an update. -/

namespace Sys2Proof.Machine

@[simp] theorem finish_w (r : Result) (s : State) : (finish r s).w = s.w := rfl
@[simp] theorem finish_rd (r : Result) (s : State) : (finish r s).rd = s.rd := rfl
@[simp] theorem finish_rdValid (r : Result) (s : State) : (finish r s).rdValid = s.rdValid := rfl
@[simp] theorem finish_st (r : Result) (s : State) : (finish r s).st = s.st := rfl
@[simp] theorem finish_p (r : Result) (s : State) : (finish r s).p = s.p := rfl
@[simp] theorem finish_scanActive (r : Result) (s : State) : (finish r s).scanActive = s.scanActive := rfl
@[simp] theorem finish_scanIdx (r : Result) (s : State) : (finish r s).scanIdx = s.scanIdx := rfl
@[simp] theorem finish_scanCode (r : Result) (s : State) : (finish r s).scanCode = s.scanCode := rfl
@[simp] theorem finish_l (r : Result) (s : State) : (finish r s).l = s.l := rfl
@[simp] theorem finish_c (r : Result) (s : State) : (finish r s).c = s.c := rfl
@[simp] theorem finish_res (r : Result) (s : State) : (finish r s).res = resultCode r := rfl
@[simp] theorem finish_resSide (r : Result) (s : State) : (finish r s).resSide = s.resSide := rfl
@[simp] theorem finish_events (r : Result) (s : State) : (finish r s).events = s.events := rfl
@[simp] theorem finish_answers (r : Result) (s : State) : (finish r s).answers = s.answers := rfl
@[simp] theorem finish_port (r : Result) (s : State) : (finish r s).port = s.port := rfl

@[simp] theorem presentWord_w (x : Word) (s : State) : (presentWord x s).w = s.w := rfl
@[simp] theorem presentWord_rd (x : Word) (s : State) : (presentWord x s).rd = s.rd := rfl
@[simp] theorem presentWord_rdValid (x : Word) (s : State) : (presentWord x s).rdValid = s.rdValid := rfl
@[simp] theorem presentWord_st (x : Word) (s : State) : (presentWord x s).st = s.st := rfl
@[simp] theorem presentWord_p (x : Word) (s : State) : (presentWord x s).p = s.p := rfl
@[simp] theorem presentWord_scanActive (x : Word) (s : State) : (presentWord x s).scanActive = s.scanActive := rfl
@[simp] theorem presentWord_scanIdx (x : Word) (s : State) : (presentWord x s).scanIdx = s.scanIdx := rfl
@[simp] theorem presentWord_scanCode (x : Word) (s : State) : (presentWord x s).scanCode = s.scanCode := rfl
@[simp] theorem presentWord_l (x : Word) (s : State) : (presentWord x s).l = s.l := rfl
@[simp] theorem presentWord_c (x : Word) (s : State) : (presentWord x s).c = s.c := rfl
@[simp] theorem presentWord_res (x : Word) (s : State) : (presentWord x s).res = s.res := rfl
@[simp] theorem presentWord_resSide (x : Word) (s : State) : (presentWord x s).resSide = s.resSide := rfl
@[simp] theorem presentWord_events (x : Word) (s : State) : (presentWord x s).events = s.events := rfl
@[simp] theorem presentWord_answers (x : Word) (s : State) : (presentWord x s).answers = s.answers := rfl
@[simp] theorem presentWord_port (x : Word) (s : State) : (presentWord x s).port = x :: s.port := rfl

@[simp] theorem emit_w (e : BusEvent) (s : State) : (emit e s).w = s.w := rfl
@[simp] theorem emit_rd (e : BusEvent) (s : State) : (emit e s).rd = s.rd := rfl
@[simp] theorem emit_rdValid (e : BusEvent) (s : State) : (emit e s).rdValid = s.rdValid := rfl
@[simp] theorem emit_st (e : BusEvent) (s : State) : (emit e s).st = s.st := rfl
@[simp] theorem emit_p (e : BusEvent) (s : State) : (emit e s).p = s.p := rfl
@[simp] theorem emit_scanActive (e : BusEvent) (s : State) : (emit e s).scanActive = s.scanActive := rfl
@[simp] theorem emit_scanIdx (e : BusEvent) (s : State) : (emit e s).scanIdx = s.scanIdx := rfl
@[simp] theorem emit_scanCode (e : BusEvent) (s : State) : (emit e s).scanCode = s.scanCode := rfl
@[simp] theorem emit_l (e : BusEvent) (s : State) : (emit e s).l = s.l := rfl
@[simp] theorem emit_c (e : BusEvent) (s : State) : (emit e s).c = s.c := rfl
@[simp] theorem emit_res (e : BusEvent) (s : State) : (emit e s).res = s.res := rfl
@[simp] theorem emit_resSide (e : BusEvent) (s : State) : (emit e s).resSide = s.resSide := rfl
@[simp] theorem emit_events (e : BusEvent) (s : State) : (emit e s).events = s.events ++ [e] := rfl
@[simp] theorem emit_answers (e : BusEvent) (s : State) : (emit e s).answers = s.answers := rfl
@[simp] theorem emit_port (e : BusEvent) (s : State) : (emit e s).port = s.port := rfl

@[simp] theorem busRead_w (k : Config) (s : State) : (busRead k s).w = s.w := rfl
@[simp] theorem busRead_rd (k : Config) (s : State) : (busRead k s).rd = s.rd := rfl
@[simp] theorem busRead_rdValid (k : Config) (s : State) : (busRead k s).rdValid = s.rdValid := rfl
@[simp] theorem busRead_st (k : Config) (s : State) : (busRead k s).st = s.st := rfl
@[simp] theorem busRead_p (k : Config) (s : State) : (busRead k s).p = s.p := rfl
@[simp] theorem busRead_scanActive (k : Config) (s : State) : (busRead k s).scanActive = s.scanActive := rfl
@[simp] theorem busRead_scanIdx (k : Config) (s : State) : (busRead k s).scanIdx = s.scanIdx := rfl
@[simp] theorem busRead_scanCode (k : Config) (s : State) : (busRead k s).scanCode = s.scanCode := rfl
@[simp] theorem busRead_l (k : Config) (s : State) : (busRead k s).l = s.l := rfl
@[simp] theorem busRead_c (k : Config) (s : State) : (busRead k s).c = s.c := rfl
@[simp] theorem busRead_res (k : Config) (s : State) : (busRead k s).res = s.res := rfl
@[simp] theorem busRead_resSide (k : Config) (s : State) : (busRead k s).resSide = s.resSide := rfl
@[simp] theorem busRead_events (k : Config) (s : State) : (busRead k s).events = s.events ++ [.read k.chipAddr k.imageBytes (nextAnswer s)] := rfl
@[simp] theorem busRead_answers (k : Config) (s : State) : (busRead k s).answers = s.answers.tail := rfl
@[simp] theorem busRead_port (k : Config) (s : State) : (busRead k s).port = s.port := rfl

@[simp] theorem takeFrame_w (m : Image) (s : State) : (takeFrame m s).w = s.w := rfl
@[simp] theorem takeFrame_rd (m : Image) (s : State) : (takeFrame m s).rd = m := rfl
@[simp] theorem takeFrame_rdValid (m : Image) (s : State) : (takeFrame m s).rdValid = true := rfl
@[simp] theorem takeFrame_st (m : Image) (s : State) : (takeFrame m s).st = { s.st with readTimeout := false } := rfl
@[simp] theorem takeFrame_p (m : Image) (s : State) : (takeFrame m s).p = s.p := rfl
@[simp] theorem takeFrame_scanActive (m : Image) (s : State) : (takeFrame m s).scanActive = s.scanActive := rfl
@[simp] theorem takeFrame_scanIdx (m : Image) (s : State) : (takeFrame m s).scanIdx = s.scanIdx := rfl
@[simp] theorem takeFrame_scanCode (m : Image) (s : State) : (takeFrame m s).scanCode = s.scanCode := rfl
@[simp] theorem takeFrame_l (m : Image) (s : State) : (takeFrame m s).l = s.l := rfl
@[simp] theorem takeFrame_c (m : Image) (s : State) : (takeFrame m s).c = s.c := rfl
@[simp] theorem takeFrame_res (m : Image) (s : State) : (takeFrame m s).res = s.res := rfl
@[simp] theorem takeFrame_resSide (m : Image) (s : State) : (takeFrame m s).resSide = s.resSide := rfl
@[simp] theorem takeFrame_events (m : Image) (s : State) : (takeFrame m s).events = s.events := rfl
@[simp] theorem takeFrame_answers (m : Image) (s : State) : (takeFrame m s).answers = s.answers := rfl
@[simp] theorem takeFrame_port (m : Image) (s : State) : (takeFrame m s).port = s.port := rfl

@[simp] theorem takeTimeout_w (s : State) : (takeTimeout s).w = s.w := rfl
@[simp] theorem takeTimeout_rd (s : State) : (takeTimeout s).rd = s.rd := rfl
@[simp] theorem takeTimeout_rdValid (s : State) : (takeTimeout s).rdValid = s.rdValid := rfl
@[simp] theorem takeTimeout_st (s : State) : (takeTimeout s).st = { s.st with readTimeout := true } := rfl
@[simp] theorem takeTimeout_p (s : State) : (takeTimeout s).p = s.p := rfl
@[simp] theorem takeTimeout_scanActive (s : State) : (takeTimeout s).scanActive = s.scanActive := rfl
@[simp] theorem takeTimeout_scanIdx (s : State) : (takeTimeout s).scanIdx = s.scanIdx := rfl
@[simp] theorem takeTimeout_scanCode (s : State) : (takeTimeout s).scanCode = s.scanCode := rfl
@[simp] theorem takeTimeout_l (s : State) : (takeTimeout s).l = s.l := rfl
@[simp] theorem takeTimeout_c (s : State) : (takeTimeout s).c = s.c := rfl
@[simp] theorem takeTimeout_res (s : State) : (takeTimeout s).res = s.res := rfl
@[simp] theorem takeTimeout_resSide (s : State) : (takeTimeout s).resSide = s.resSide := rfl
@[simp] theorem takeTimeout_events (s : State) : (takeTimeout s).events = s.events := rfl
@[simp] theorem takeTimeout_answers (s : State) : (takeTimeout s).answers = s.answers := rfl
@[simp] theorem takeTimeout_port (s : State) : (takeTimeout s).port = s.port := rfl

@[simp] theorem tune_w (k : Config) (f : Int) (s : State) : (tune k f s).w = putPll s.w (pllFor k f (side s.w)) := rfl
@[simp] theorem tune_rd (k : Config) (f : Int) (s : State) : (tune k f s).rd = s.rd := rfl
@[simp] theorem tune_rdValid (k : Config) (f : Int) (s : State) : (tune k f s).rdValid = s.rdValid := rfl
@[simp] theorem tune_st (k : Config) (f : Int) (s : State) : (tune k f s).st = s.st := rfl
@[simp] theorem tune_p (k : Config) (f : Int) (s : State) : (tune k f s).p = s.p := rfl
@[simp] theorem tune_scanActive (k : Config) (f : Int) (s : State) : (tune k f s).scanActive = s.scanActive := rfl
@[simp] theorem tune_scanIdx (k : Config) (f : Int) (s : State) : (tune k f s).scanIdx = s.scanIdx := rfl
@[simp] theorem tune_scanCode (k : Config) (f : Int) (s : State) : (tune k f s).scanCode = s.scanCode := rfl
@[simp] theorem tune_l (k : Config) (f : Int) (s : State) : (tune k f s).l = s.l := rfl
@[simp] theorem tune_c (k : Config) (f : Int) (s : State) : (tune k f s).c = s.c := rfl
@[simp] theorem tune_res (k : Config) (f : Int) (s : State) : (tune k f s).res = s.res := rfl
@[simp] theorem tune_resSide (k : Config) (f : Int) (s : State) : (tune k f s).resSide = s.resSide := rfl
@[simp] theorem tune_events (k : Config) (f : Int) (s : State) : (tune k f s).events = s.events := rfl
@[simp] theorem tune_answers (k : Config) (f : Int) (s : State) : (tune k f s).answers = s.answers := rfl
@[simp] theorem tune_port (k : Config) (f : Int) (s : State) : (tune k f s).port = s.port := rfl

@[simp] theorem commit_w (k : Config) (f : Int) (sd : Side) (s : State) : (commit k f sd s).w = putPll (putInjection s.w (sideBit sd)) (pllFor k f (side (putInjection s.w (sideBit sd)))) := rfl
@[simp] theorem commit_rd (k : Config) (f : Int) (sd : Side) (s : State) : (commit k f sd s).rd = s.rd := rfl
@[simp] theorem commit_rdValid (k : Config) (f : Int) (sd : Side) (s : State) : (commit k f sd s).rdValid = s.rdValid := rfl
@[simp] theorem commit_st (k : Config) (f : Int) (sd : Side) (s : State) : (commit k f sd s).st = s.st := rfl
@[simp] theorem commit_p (k : Config) (f : Int) (sd : Side) (s : State) : (commit k f sd s).p = s.p := rfl
@[simp] theorem commit_scanActive (k : Config) (f : Int) (sd : Side) (s : State) : (commit k f sd s).scanActive = s.scanActive := rfl
@[simp] theorem commit_scanIdx (k : Config) (f : Int) (sd : Side) (s : State) : (commit k f sd s).scanIdx = s.scanIdx := rfl
@[simp] theorem commit_scanCode (k : Config) (f : Int) (sd : Side) (s : State) : (commit k f sd s).scanCode = s.scanCode := rfl
@[simp] theorem commit_l (k : Config) (f : Int) (sd : Side) (s : State) : (commit k f sd s).l = s.l := rfl
@[simp] theorem commit_c (k : Config) (f : Int) (sd : Side) (s : State) : (commit k f sd s).c = s.c := rfl
@[simp] theorem commit_res (k : Config) (f : Int) (sd : Side) (s : State) : (commit k f sd s).res = s.res := rfl
@[simp] theorem commit_resSide (k : Config) (f : Int) (sd : Side) (s : State) : (commit k f sd s).resSide = s.resSide := rfl
@[simp] theorem commit_events (k : Config) (f : Int) (sd : Side) (s : State) : (commit k f sd s).events = s.events := rfl
@[simp] theorem commit_answers (k : Config) (f : Int) (sd : Side) (s : State) : (commit k f sd s).answers = s.answers := rfl
@[simp] theorem commit_port (k : Config) (f : Int) (sd : Side) (s : State) : (commit k f sd s).port = s.port := rfl

@[simp] theorem recordSearch_w (up : Bool) (x : StopCode) (s : State) : (recordSearch up x s).w = putStopCode (putSearchUp s.w up) x := rfl
@[simp] theorem recordSearch_rd (up : Bool) (x : StopCode) (s : State) : (recordSearch up x s).rd = s.rd := rfl
@[simp] theorem recordSearch_rdValid (up : Bool) (x : StopCode) (s : State) : (recordSearch up x s).rdValid = s.rdValid := rfl
@[simp] theorem recordSearch_st (up : Bool) (x : StopCode) (s : State) : (recordSearch up x s).st = s.st := rfl
@[simp] theorem recordSearch_p (up : Bool) (x : StopCode) (s : State) : (recordSearch up x s).p = s.p := rfl
@[simp] theorem recordSearch_scanActive (up : Bool) (x : StopCode) (s : State) : (recordSearch up x s).scanActive = s.scanActive := rfl
@[simp] theorem recordSearch_scanIdx (up : Bool) (x : StopCode) (s : State) : (recordSearch up x s).scanIdx = s.scanIdx := rfl
@[simp] theorem recordSearch_scanCode (up : Bool) (x : StopCode) (s : State) : (recordSearch up x s).scanCode = s.scanCode := rfl
@[simp] theorem recordSearch_l (up : Bool) (x : StopCode) (s : State) : (recordSearch up x s).l = s.l := rfl
@[simp] theorem recordSearch_c (up : Bool) (x : StopCode) (s : State) : (recordSearch up x s).c = s.c := rfl
@[simp] theorem recordSearch_res (up : Bool) (x : StopCode) (s : State) : (recordSearch up x s).res = s.res := rfl
@[simp] theorem recordSearch_resSide (up : Bool) (x : StopCode) (s : State) : (recordSearch up x s).resSide = s.resSide := rfl
@[simp] theorem recordSearch_events (up : Bool) (x : StopCode) (s : State) : (recordSearch up x s).events = s.events := rfl
@[simp] theorem recordSearch_answers (up : Bool) (x : StopCode) (s : State) : (recordSearch up x s).answers = s.answers := rfl
@[simp] theorem recordSearch_port (up : Bool) (x : StopCode) (s : State) : (recordSearch up x s).port = s.port := rfl

@[simp] theorem clearPresets_w (s : State) : (clearPresets s).w = s.w := rfl
@[simp] theorem clearPresets_rd (s : State) : (clearPresets s).rd = s.rd := rfl
@[simp] theorem clearPresets_rdValid (s : State) : (clearPresets s).rdValid = s.rdValid := rfl
@[simp] theorem clearPresets_st (s : State) : (clearPresets s).st = s.st := rfl
@[simp] theorem clearPresets_p (s : State) : (clearPresets s).p = s.p := rfl
@[simp] theorem clearPresets_scanActive (s : State) : (clearPresets s).scanActive = s.scanActive := rfl
@[simp] theorem clearPresets_scanIdx (s : State) : (clearPresets s).scanIdx = s.scanIdx := rfl
@[simp] theorem clearPresets_scanCode (s : State) : (clearPresets s).scanCode = s.scanCode := rfl
@[simp] theorem clearPresets_l (s : State) : (clearPresets s).l = [] := rfl
@[simp] theorem clearPresets_c (s : State) : (clearPresets s).c = s.c := rfl
@[simp] theorem clearPresets_res (s : State) : (clearPresets s).res = s.res := rfl
@[simp] theorem clearPresets_resSide (s : State) : (clearPresets s).resSide = s.resSide := rfl
@[simp] theorem clearPresets_events (s : State) : (clearPresets s).events = s.events := rfl
@[simp] theorem clearPresets_answers (s : State) : (clearPresets s).answers = s.answers := rfl
@[simp] theorem clearPresets_port (s : State) : (clearPresets s).port = s.port := rfl

@[simp] theorem endScan_w (r : Result) (s : State) : (endScan r s).w = s.w := rfl
@[simp] theorem endScan_rd (r : Result) (s : State) : (endScan r s).rd = s.rd := rfl
@[simp] theorem endScan_rdValid (r : Result) (s : State) : (endScan r s).rdValid = s.rdValid := rfl
@[simp] theorem endScan_st (r : Result) (s : State) : (endScan r s).st = s.st := rfl
@[simp] theorem endScan_p (r : Result) (s : State) : (endScan r s).p = s.p := rfl
@[simp] theorem endScan_scanActive (r : Result) (s : State) : (endScan r s).scanActive = false := rfl
@[simp] theorem endScan_scanIdx (r : Result) (s : State) : (endScan r s).scanIdx = s.scanIdx := rfl
@[simp] theorem endScan_scanCode (r : Result) (s : State) : (endScan r s).scanCode = s.scanCode := rfl
@[simp] theorem endScan_l (r : Result) (s : State) : (endScan r s).l = s.l := rfl
@[simp] theorem endScan_c (r : Result) (s : State) : (endScan r s).c = s.c := rfl
@[simp] theorem endScan_res (r : Result) (s : State) : (endScan r s).res = resultCode r := rfl
@[simp] theorem endScan_resSide (r : Result) (s : State) : (endScan r s).resSide = s.resSide := rfl
@[simp] theorem endScan_events (r : Result) (s : State) : (endScan r s).events = s.events := rfl
@[simp] theorem endScan_answers (r : Result) (s : State) : (endScan r s).answers = s.answers := rfl
@[simp] theorem endScan_port (r : Result) (s : State) : (endScan r s).port = s.port := rfl

@[simp] theorem flush_w (k : Config) (s : State) : (flush k s).w = s.w := rfl
@[simp] theorem flush_rd (k : Config) (s : State) : (flush k s).rd = s.rd := rfl
@[simp] theorem flush_rdValid (k : Config) (s : State) : (flush k s).rdValid = s.rdValid := rfl
@[simp] theorem flush_st (k : Config) (s : State) : (flush k s).st = s.st := rfl
@[simp] theorem flush_p (k : Config) (s : State) : (flush k s).p = s.p := rfl
@[simp] theorem flush_scanActive (k : Config) (s : State) : (flush k s).scanActive = s.scanActive := rfl
@[simp] theorem flush_scanIdx (k : Config) (s : State) : (flush k s).scanIdx = s.scanIdx := rfl
@[simp] theorem flush_scanCode (k : Config) (s : State) : (flush k s).scanCode = s.scanCode := rfl
@[simp] theorem flush_l (k : Config) (s : State) : (flush k s).l = s.l := rfl
@[simp] theorem flush_c (k : Config) (s : State) : (flush k s).c = s.c := rfl
@[simp] theorem flush_res (k : Config) (s : State) : (flush k s).res = s.res := rfl
@[simp] theorem flush_resSide (k : Config) (s : State) : (flush k s).resSide = s.resSide := rfl
@[simp] theorem flush_events (k : Config) (s : State) :
    (flush k s).events = s.events ++ [.write k.chipAddr s.w, .settle k.settleMs] := by
  simp [flush, settle, busWrite]
@[simp] theorem flush_answers (k : Config) (s : State) : (flush k s).answers = s.answers := rfl
@[simp] theorem flush_port (k : Config) (s : State) : (flush k s).port = s.port := rfl

end Sys2Proof.Machine
end

