-- ==== Sys2Proof/Laws/Bus.lean ====
section
/-! SUPPORT. What the bus procedures can do (41_bus_status.md): one lemma per procedure, which says every way it can end. -/

namespace Sys2Proof.Machine

/-- A block of the history in which the block only reads: each event asks CHIP_ADDR for five bytes (20_memory.md R57). -/
def AllReads (k : Config) (h : List BusEvent) : Prop := ∀ e ∈ h, ∃ a, e = .read k.chipAddr k.imageBytes a

theorem AllReads.append {k : Config} {g h : List BusEvent} (hg : AllReads k g) (hh : AllReads k h) :
    AllReads k (g ++ h) := by
  intro e he
  rcases List.mem_append.mp he with he | he
  exacts [hg e he, hh e he]

/-- What a sequence of read attempts leaves alone: it writes rd, rdValid and the status, records the reads `h` and uses
answers up. -/
structure ReadsOnly (k : Config) (s t : State) (h : List BusEvent) : Prop where
  same : t = { s with rd := t.rd, rdValid := t.rdValid, st := t.st, events := t.events, answers := t.answers }
  events : t.events = s.events ++ h
  reads : AllReads k h

theorem ReadsOnly.refl (k : Config) (s : State) : ReadsOnly k s s [] :=
  ⟨rfl, by simp, by simp [AllReads]⟩

theorem ReadsOnly.trans {k : Config} {s t u : State} {g h : List BusEvent} (a : ReadsOnly k s t g)
    (b : ReadsOnly k t u h) : ReadsOnly k s u (g ++ h) := by
  refine ⟨?_, by rw [b.events, a.events, List.append_assoc], a.reads.append b.reads⟩
  have h1 := a.same
  have h2 := b.same
  rw [h1] at h2
  exact h2

theorem ReadsOnly.w_eq {k : Config} {s t : State} {h : List BusEvent} (a : ReadsOnly k s t h) : t.w = s.w := by
  have h := congrArg State.w a.same
  exact h

/-- `readRaw` (R142): a frame replaces Rd whole, a timeout leaves it; either way one read is recorded. -/
theorem readRaw_cases (k : Config) (s : State) :
    (nextAnswer s = .timeout ∧ readRaw k s = (false, takeTimeout (busRead k s))) ∨
    (∃ m, nextAnswer s = .bytes m ∧ readRaw k s = (true, takeFrame m (busRead k s))) := by
  unfold readRaw
  cases h : nextAnswer s with
  | timeout => exact .inl ⟨rfl, rfl⟩
  | bytes m => exact .inr ⟨m, rfl, rfl⟩

theorem busRead_readsOnly_timeout (k : Config) (s : State) :
    ReadsOnly k s (takeTimeout (busRead k s)) [.read k.chipAddr k.imageBytes (nextAnswer s)] :=
  ⟨rfl, rfl, by simp [AllReads]⟩

theorem busRead_readsOnly_frame (k : Config) (s : State) (m : Image) :
    ReadsOnly k s (takeFrame m (busRead k s)) [.read k.chipAddr k.imageBytes (nextAnswer s)] :=
  ⟨rfl, rfl, by simp [AllReads]⟩

/-- The timeout guard (R151): it ends on a frame after fewer than `n` timeouts, or after `n` timeouts with Rd unchanged. -/
theorem readGuard_cases (k : Config) (n : Nat) (s : State) :
    (∃ t h m, readGuard k n s = (true, t) ∧ ReadsOnly k s t h ∧ 1 ≤ h.length ∧ h.length ≤ n ∧ t.rd = m ∧
        t.rdValid = true ∧ t.st = { s.st with readTimeout := false } ∧
        h = List.replicate (h.length - 1) (.read k.chipAddr k.imageBytes .timeout) ++
          [.read k.chipAddr k.imageBytes (.bytes m)]) ∨
    (∃ t, readGuard k n s = (false, t) ∧
        ReadsOnly k s t (List.replicate n (.read k.chipAddr k.imageBytes .timeout)) ∧ t.rd = s.rd ∧
        t.rdValid = s.rdValid ∧ t.st = { s.st with readTimeout := if n = 0 then s.st.readTimeout else true }) := by
  induction n generalizing s with
  | zero => exact .inr ⟨s, rfl, ReadsOnly.refl k s, rfl, rfl, rfl⟩
  | succ n ih =>
    rcases readRaw_cases k s with ⟨ha, hr⟩ | ⟨m, ha, hr⟩
    · have h1 := busRead_readsOnly_timeout k s
      rw [ha] at h1
      rcases ih (takeTimeout (busRead k s)) with ⟨t, h, m, e, ro, l1, l2, hm, hv, hst, hh⟩ | ⟨t, e, ro, hm, hv, hst⟩
      · refine .inl ⟨t, _, m, by simp [readGuard, hr, e], h1.trans ro, by simp, by simp; omega, hm, hv, by simp [hst], ?_⟩
        obtain ⟨j, hj⟩ : ∃ j, h.length = j + 1 := ⟨h.length - 1, by omega⟩
        rw [hh]
        simp [hj, List.replicate_succ]
      · refine .inr ⟨t, by simp [readGuard, hr, e], by simpa [List.replicate_succ] using h1.trans ro, by simp [hm],
          by simp [hv], ?_⟩
        rw [hst]
        by_cases h0 : n = 0 <;> simp [h0]
    · have h1 := busRead_readsOnly_frame k s m
      rw [ha] at h1
      exact .inl ⟨_, _, m, by simp [readGuard, hr], h1, by simp, by simp, rfl, rfl, rfl, by simp⟩

/-- `decode` (R146, R147): a zero PLL word writes nothing, any other frame replaces the decoded fields. -/
theorem decodeStatus_cases (k : Config) (s : State) :
    (rdPll k s.rd = 0#14 ∧ decodeStatus k s = (false, s)) ∨
    (rdPll k s.rd ≠ 0#14 ∧ decodeStatus k s = (true, { s with st := decodedStatus k (side s.w) s.rd s.st })) := by
  unfold decodeStatus
  by_cases h : rdPll k s.rd = 0#14
  · exact .inl ⟨h, by rw [if_pos h]⟩
  · exact .inr ⟨h, by rw [if_neg h]⟩

/-- One round of the PLL-zero guard (R151). -/
theorem zeroGuard_succ (k : Config) (n : Nat) (s : State) :
    zeroGuard k (n + 1) s =
      match readGuard k k.readAttempts s with
      | (false, t) => (.commError, t)
      | (true, t) =>
        match decodeStatus k t with
        | (true, u) => (.ok, u)
        | (false, u) => zeroGuard k n u := rfl

/-- How the PLL-zero guard can end (R151 to R155), for a positive number of read attempts. -/
structure ReadEnds (k : Config) (n : Nat) (s : State) (r : ReadResult) (t : State) : Prop where
  reads : ∃ h, ReadsOnly k s t h ∧ h.length ≤ n * k.readAttempts ∧ (0 < n → 1 ≤ h.length)
  ok : r = .ok → rdPll k t.rd ≠ 0#14 ∧ t.rdValid = true ∧
    t.st = decodedStatus k (side s.w) t.rd { s.st with readTimeout := false }
  notReady : r = .notReady → t = s ∧ n = 0 ∨
    rdPll k t.rd = 0#14 ∧ t.rdValid = true ∧ t.st = { s.st with readTimeout := false }
  commError : r = .commError → t.st = { s.st with readTimeout := true } ∧
    ((t.rd = s.rd ∧ t.rdValid = s.rdValid) ∨ (rdPll k t.rd = 0#14 ∧ t.rdValid = true))

theorem zeroGuard_ends (k : Config) (hk : 0 < k.readAttempts) (n : Nat) (s : State) :
    ReadEnds k n s (zeroGuard k n s).1 (zeroGuard k n s).2 := by
  induction n generalizing s with
  | zero => exact ⟨⟨[], ReadsOnly.refl k s, by simp, by simp⟩, by simp [zeroGuard], by simp [zeroGuard], by simp [zeroGuard]⟩
  | succ n ih =>
    have hk' : k.readAttempts ≤ (n + 1) * k.readAttempts := Nat.le_mul_of_pos_left _ (by omega)
    rcases readGuard_cases k k.readAttempts s with ⟨t, h, m, e, ro, l1, l2, hm, hv, hst, -⟩ | ⟨t, e, ro, hm, hv, hst⟩
    · rcases decodeStatus_cases k t with ⟨hz, hd⟩ | ⟨hz, hd⟩
      · have q : zeroGuard k (n + 1) s = zeroGuard k n t := by simp [zeroGuard, e, hd]
        rw [q]
        obtain ⟨⟨g, rg, lg, -⟩, a, b, c⟩ := ih t
        refine ⟨⟨_, ro.trans rg, by simp [Nat.add_mul]; omega, by simp; omega⟩, ?_, ?_, ?_⟩
        · intro hr
          obtain ⟨a1, a2, a3⟩ := a hr
          exact ⟨a1, a2, by rw [a3, hst, ro.w_eq]⟩
        · intro hr
          rcases b hr with ⟨b1, -⟩ | ⟨b1, b2, b3⟩
          · exact .inr ⟨by rw [b1]; exact hz, by rw [b1]; exact hv, by rw [b1]; exact hst⟩
          · exact .inr ⟨b1, b2, by rw [b3, hst]⟩
        · intro hr
          obtain ⟨c1, c2⟩ := c hr
          refine ⟨by rw [c1, hst], ?_⟩
          rcases c2 with ⟨c3, c4⟩ | c3
          · exact .inr ⟨by rw [c3]; exact hz, by rw [c4]; exact hv⟩
          · exact .inr c3
      · have q : zeroGuard k (n + 1) s = (.ok, { t with st := decodedStatus k (side t.w) t.rd t.st }) := by
          simp [zeroGuard, e, hd]
        rw [q]
        refine ⟨⟨h, ⟨?_, ro.events, ro.reads⟩, by omega, fun _ => l1⟩, ?_, by simp, by simp⟩
        · have h2 := ro.same
          rw [h2]
        · exact fun _ => ⟨hz, hv, by simp [hst, ro.w_eq]⟩
    · have q : zeroGuard k (n + 1) s = (.commError, t) := by simp [zeroGuard, e]
      rw [q]
      refine ⟨⟨_, ro, by simp [hk'], by simp; omega⟩, by simp, by simp, fun _ => ⟨?_, .inl ⟨hm, hv⟩⟩⟩
      rw [hst, if_neg (by omega)]

/-- `readAndDecode` (R151 to R155). -/
theorem readAndDecode_ends (k : Config) (hk : 0 < k.readAttempts) (s : State) :
    ReadEnds k k.zeroAttempts s (readAndDecode k s).1 (readAndDecode k s).2 :=
  zeroGuard_ends k hk k.zeroAttempts s

end Sys2Proof.Machine
end

