-- ==== Sys2Proof/Laws/Tune.lean ====
section
/-! SUPPORT. What the tuning procedures can do (42_optimizer.md R170, 43_search_fsm.md R182, R185): the image they leave, the
bus events they emit, and the state they leave alone. -/

namespace Sys2Proof.Machine

/-! ## Histories -/

theorem historyOk_append {k : Config} {g h : List BusEvent} (hg : historyOk k g = true) (hh : historyOk k h = true) :
    historyOk k (g ++ h) = true := by
  induction g using historyOk.induct with
  | case1 => simpa using hh
  | case2 a m ms rest ih =>
    simp only [historyOk, Bool.and_eq_true] at hg
    simp [historyOk, hg.1, ih hg.2]
  | case3 a n x rest ih =>
    simp only [historyOk, Bool.and_eq_true] at hg
    simp [historyOk, hg.1, ih hg.2]
  | case4 => simp [historyOk] at hg
  | case5 a m rest hne =>
    cases rest with
    | nil => simp [historyOk] at hg
    | cons e rest => cases e <;> simp_all [historyOk]

theorem historyOk_settles {k : Config} {h : List BusEvent} (hh : historyOk k h = true) : settles h = writes h := by
  induction h using historyOk.induct with
  | case1 => rfl
  | case2 a m ms rest ih =>
    simp only [historyOk, Bool.and_eq_true] at hh
    simpa [settles, writes] using ih hh.2
  | case3 a n x rest ih =>
    simp only [historyOk, Bool.and_eq_true] at hh
    simpa [settles, writes] using ih hh.2
  | case4 => simp [historyOk] at hh
  | case5 a m rest hne =>
    cases rest with
    | nil => simp [historyOk] at hh
    | cons e rest => cases e <;> simp_all [historyOk]

@[simp] theorem writes_nil : writes [] = 0 := rfl
@[simp] theorem reads_nil : reads [] = 0 := rfl
@[simp] theorem settles_nil : settles [] = 0 := rfl
@[simp] theorem writes_write_cons (a : BusAddr) (m : Image) (h : List BusEvent) :
    writes (.write a m :: h) = writes h + 1 := by simp [writes]
@[simp] theorem writes_settle_cons (n : Nat) (h : List BusEvent) :
    writes (.settle n :: h) = writes h := by simp [writes]
@[simp] theorem writes_read_cons (a : BusAddr) (n : Nat) (x : ReadAnswer) (h : List BusEvent) :
    writes (.read a n x :: h) = writes h := by simp [writes]
@[simp] theorem reads_write_cons (a : BusAddr) (m : Image) (h : List BusEvent) :
    reads (.write a m :: h) = reads h := by simp [reads]
@[simp] theorem reads_settle_cons (n : Nat) (h : List BusEvent) :
    reads (.settle n :: h) = reads h := by simp [reads]
@[simp] theorem reads_read_cons (a : BusAddr) (n : Nat) (x : ReadAnswer) (h : List BusEvent) :
    reads (.read a n x :: h) = reads h + 1 := by simp [reads]
@[simp] theorem settles_write_cons (a : BusAddr) (m : Image) (h : List BusEvent) :
    settles (.write a m :: h) = settles h := by simp [settles]
@[simp] theorem settles_settle_cons (n : Nat) (h : List BusEvent) :
    settles (.settle n :: h) = settles h + 1 := by simp [settles]
@[simp] theorem settles_read_cons (a : BusAddr) (n : Nat) (x : ReadAnswer) (h : List BusEvent) :
    settles (.read a n x :: h) = settles h := by simp [settles]
@[simp] theorem writes_append (g h : List BusEvent) : writes (g ++ h) = writes g + writes h := by simp [writes]
@[simp] theorem reads_append (g h : List BusEvent) : reads (g ++ h) = reads g + reads h := by simp [reads]
@[simp] theorem settles_append (g h : List BusEvent) : settles (g ++ h) = settles g + settles h := by simp [settles]
@[simp] theorem historyImages_append (g h : List BusEvent) :
    historyImages (g ++ h) = (historyImages g && historyImages h) := by simp [historyImages]

theorem AllReads.shape {k : Config} {h : List BusEvent} (hh : AllReads k h) :
    historyOk k h = true ∧ historyImages h = true ∧ writes h = 0 ∧ reads h = h.length := by
  induction h with
  | nil => exact ⟨rfl, rfl, rfl, rfl⟩
  | cons e h ih =>
    obtain ⟨a, rfl⟩ := hh e (by simp)
    obtain ⟨h1, h2, h3, h4⟩ := ih fun e he => hh e (by simp [he])
    simp_all [historyOk, historyImages, writes, reads]

/-! ## The image a tune leaves -/

/-- The image after `commit(f, side)` (43_search_fsm.md R182). -/
def tunedImage (k : Config) (f : Int) (sd : Side) (w : Image) : Image :=
  putPll (putInjection w (sideBit sd)) (pllFor k f sd)

@[simp] theorem side_putInjection (w : Image) (sd : Side) : side (putInjection w (sideBit sd)) = sd := by
  cases sd <;> simp [side, sideBit]

theorem commit_eq (k : Config) (f : Int) (sd : Side) (s : State) :
    commit k f sd s = { s with w := tunedImage k f sd s.w } := by
  simp [commit, tune, tunedImage]

@[simp] theorem mute_tunedImage (k : Config) (f : Int) (sd : Side) (w : Image) : mute (tunedImage k f sd w) = mute w := by
  simp [tunedImage]
@[simp] theorem searchMode_tunedImage (k : Config) (f : Int) (sd : Side) (w : Image) :
    searchMode (tunedImage k f sd w) = searchMode w := by simp [tunedImage]
@[simp] theorem pllWord_tunedImage (k : Config) (f : Int) (sd : Side) (w : Image) :
    pllWord (tunedImage k f sd w) = pllFor k f sd := by simp [tunedImage]
@[simp] theorem injection_tunedImage (k : Config) (f : Int) (sd : Side) (w : Image) :
    injection (tunedImage k f sd w) = sideBit sd := by simp [tunedImage]
@[simp] theorem side_tunedImage (k : Config) (f : Int) (sd : Side) (w : Image) : side (tunedImage k f sd w) = sd := by
  cases sd <;> simp [side, sideBit]
@[simp] theorem searchUp_tunedImage (k : Config) (f : Int) (sd : Side) (w : Image) :
    searchUp (tunedImage k f sd w) = searchUp w := by simp [tunedImage]
@[simp] theorem stopCode_tunedImage (k : Config) (f : Int) (sd : Side) (w : Image) :
    stopCode (tunedImage k f sd w) = stopCode w := by simp [tunedImage]
@[simp] theorem mono_tunedImage (k : Config) (f : Int) (sd : Side) (w : Image) : mono (tunedImage k f sd w) = mono w := by
  simp [tunedImage]
@[simp] theorem muteRight_tunedImage (k : Config) (f : Int) (sd : Side) (w : Image) :
    muteRight (tunedImage k f sd w) = muteRight w := by simp [tunedImage]
@[simp] theorem muteLeft_tunedImage (k : Config) (f : Int) (sd : Side) (w : Image) :
    muteLeft (tunedImage k f sd w) = muteLeft w := by simp [tunedImage]
@[simp] theorem swp1_tunedImage (k : Config) (f : Int) (sd : Side) (w : Image) : swp1 (tunedImage k f sd w) = swp1 w := by
  simp [tunedImage]
@[simp] theorem b3_tunedImage (k : Config) (f : Int) (sd : Side) (w : Image) : (tunedImage k f sd w).b3 = w.b3 := rfl
@[simp] theorem b4_tunedImage (k : Config) (f : Int) (sd : Side) (w : Image) : (tunedImage k f sd w).b4 = w.b4 := rfl
@[simp] theorem band_tunedImage (k : Config) (f : Int) (sd : Side) (w : Image) : band (tunedImage k f sd w) = band w := rfl
@[simp] theorem imageConst_tunedImage (k : Config) (f : Int) (sd : Side) (w : Image) :
    imageConst (tunedImage k f sd w) = imageConst w := rfl

/-- The later of two tunes stands. -/
@[simp] theorem tunedImage_tunedImage (k : Config) (f g : Int) (sd sd' : Side) (w : Image) :
    tunedImage k f sd (tunedImage k g sd' w) = tunedImage k f sd w := by
  simp [tunedImage, putPll, putInjection, putBit, putField_putField]

/-! ## Tuning procedures -/

/-- What a tuning procedure of at most `n` flushes leaves alone and emits: it writes W (the caller says how), rd, rdValid, S
and the bus history, and each flush is followed by the reads of one `readAndDecode`. -/
structure Tunes (k : Config) (n : Nat) (s t : State) (h : List BusEvent) : Prop where
  same : t = { s with
    w := t.w, rd := t.rd, rdValid := t.rdValid, st := t.st, events := t.events, answers := t.answers }
  events : t.events = s.events ++ h
  paired : historyOk k h = true
  images : imageConst s.w = true → historyImages h = true
  const : imageConst t.w = imageConst s.w
  b3 : t.w.b3 = s.w.b3
  unread : (s.rdValid = false → s.st.valid = false) → t.rdValid = false → t.st.valid = false
  maxWrites : writes h ≤ n
  maxReads : reads h ≤ n * (k.zeroAttempts * k.readAttempts)

theorem Tunes.p_eq {k : Config} {n : Nat} {s t : State} {h : List BusEvent} (a : Tunes k n s t h) : t.p = s.p := by
  have e := congrArg State.p a.same
  exact e

theorem Tunes.scanActive_eq {k : Config} {n : Nat} {s t : State} {h : List BusEvent} (a : Tunes k n s t h) : t.scanActive = s.scanActive := by
  have e := congrArg State.scanActive a.same
  exact e

theorem Tunes.scanIdx_eq {k : Config} {n : Nat} {s t : State} {h : List BusEvent} (a : Tunes k n s t h) : t.scanIdx = s.scanIdx := by
  have e := congrArg State.scanIdx a.same
  exact e

theorem Tunes.scanCode_eq {k : Config} {n : Nat} {s t : State} {h : List BusEvent} (a : Tunes k n s t h) : t.scanCode = s.scanCode := by
  have e := congrArg State.scanCode a.same
  exact e

theorem Tunes.l_eq {k : Config} {n : Nat} {s t : State} {h : List BusEvent} (a : Tunes k n s t h) : t.l = s.l := by
  have e := congrArg State.l a.same
  exact e

theorem Tunes.c_eq {k : Config} {n : Nat} {s t : State} {h : List BusEvent} (a : Tunes k n s t h) : t.c = s.c := by
  have e := congrArg State.c a.same
  exact e

theorem Tunes.res_eq {k : Config} {n : Nat} {s t : State} {h : List BusEvent} (a : Tunes k n s t h) : t.res = s.res := by
  have e := congrArg State.res a.same
  exact e

theorem Tunes.resSide_eq {k : Config} {n : Nat} {s t : State} {h : List BusEvent} (a : Tunes k n s t h) : t.resSide = s.resSide := by
  have e := congrArg State.resSide a.same
  exact e

theorem Tunes.port_eq {k : Config} {n : Nat} {s t : State} {h : List BusEvent} (a : Tunes k n s t h) : t.port = s.port := by
  have e := congrArg State.port a.same
  exact e

theorem Tunes.trans {k : Config} {m n : Nat} {s t u : State} {g h : List BusEvent} (a : Tunes k m s t g)
    (b : Tunes k n t u h) : Tunes k (m + n) s u (g ++ h) := by
  refine ⟨?_, by rw [b.events, a.events, List.append_assoc], historyOk_append a.paired b.paired, ?_, ?_, ?_, ?_, ?_, ?_⟩
  · have h1 := a.same
    have h2 := b.same
    rw [h1] at h2
    exact h2
  · intro hc
    simp [a.images hc, b.images (a.const.trans hc)]
  · exact b.const.trans a.const
  · exact b.b3.trans a.b3
  · exact fun hs => b.unread (a.unread hs)
  · simpa using Nat.add_le_add a.maxWrites b.maxWrites
  · simpa [Nat.add_mul] using Nat.add_le_add a.maxReads b.maxReads

theorem Tunes.mono {k : Config} {m n : Nat} {s t : State} {h : List BusEvent} (a : Tunes k m s t h) (hmn : m ≤ n) :
    Tunes k n s t h :=
  { a with
    maxWrites := a.maxWrites.trans hmn
    maxReads := a.maxReads.trans (Nat.mul_le_mul_right _ hmn) }

/-- Commit, flush, read and decode: one Write and Settle, then the reads; the image is the committed one, and the status is
as the read ends (R170, R172; 41_bus_status.md R146 to R155). -/
theorem tuneAndRead_cases (k : Config) (hk : 0 < k.readAttempts) (hz : 0 < k.zeroAttempts) (f : Int) (sd : Side)
    (s : State) :
    (∃ h, Tunes k 1 s (tuneAndRead k f sd s).2 h ∧ writes h = 1 ∧ 1 ≤ reads h) ∧
    (tuneAndRead k f sd s).2.w = tunedImage k f sd s.w ∧
    ReadEnds k k.zeroAttempts (flush k (commit k f sd s)) (tuneAndRead k f sd s).1 (tuneAndRead k f sd s).2 := by
  have e := readAndDecode_ends k hk (flush k (commit k f sd s))
  obtain ⟨h, ro, hl, hp⟩ := e.reads
  obtain ⟨h1, h2, h3, h4⟩ := ro.reads.shape
  have hw : (tuneAndRead k f sd s).2.w = tunedImage k f sd s.w := by
    have := ro.w_eq
    rwa [flush_w, show (commit k f sd s).w = tunedImage k f sd s.w by rw [commit_eq]] at this
  refine ⟨⟨[.write k.chipAddr (tunedImage k f sd s.w), .settle k.settleMs] ++ h, ⟨?_, ?_, ?_, ?_, ?_, ?_, ?_, ?_, ?_⟩, ?_, ?_⟩,
    hw, e⟩
  · have h5 := ro.same
    rw [commit_eq] at h5
    unfold tuneAndRead
    rw [commit_eq]
    rw [h5]
    rfl
  · have h5 := ro.events
    rw [flush_events, commit_eq] at h5
    rw [← List.append_assoc]
    unfold tuneAndRead
    rw [commit_eq]
    exact h5
  · exact historyOk_append (by simp [historyOk]) h1
  · intro hc
    simp [historyImages, hc] at h2 ⊢
    exact h2
  · rw [hw]; simp
  · rw [hw]; simp
  · intro hs hv
    cases hr : (tuneAndRead k f sd s).1 with
    | ok =>
      have := (e.ok hr).2.1
      exact absurd (hv.symm.trans this) (by decide)
    | notReady =>
      rcases e.notReady hr with ⟨-, h0⟩ | ⟨-, h5, -⟩
      · omega
      · exact absurd (hv.symm.trans h5) (by decide)
    | commError =>
      obtain ⟨h5, h6⟩ := e.commError hr
      rcases h6 with ⟨-, h7⟩ | ⟨-, h7⟩
      · have h8 : s.rdValid = false := h7.symm.trans hv
        have h9 := congrArg Status.valid h5
        exact h9.trans (hs h8)
      · exact absurd (hv.symm.trans h7) (by decide)
  · simp [h3]
  · simpa [h4] using hl
  · simp [h3]
  · simpa [h4] using hp hz

/-- The optimizer (R170): it chooses after two probes, with the second probe's image in W, or it ends at a COMM_ERROR. -/
theorem optimize_cases (k : Config) (hk : 0 < k.readAttempts) (hz : 0 < k.zeroAttempts) (f : Int) (s : State) :
    (∃ h t sd, optimize k f s = (some sd, t) ∧ Tunes k 2 s t h ∧ writes h = 2 ∧ 2 ≤ reads h ∧
      t.w = tunedImage k (f - k.probeOffsetHz) .low s.w) ∨
    (∃ h t, optimize k f s = (none, t) ∧ Tunes k 2 s t h ∧
      (t.w = tunedImage k (f + k.probeOffsetHz) .high s.w ∨ t.w = tunedImage k (f - k.probeOffsetHz) .low s.w)) := by
  obtain ⟨⟨h, hT, hw, hr⟩, hi, -⟩ := tuneAndRead_cases k hk hz (f + k.probeOffsetHz) .high s
  generalize q : tuneAndRead k (f + k.probeOffsetHz) .high s = a at *
  obtain ⟨r, t⟩ := a
  obtain ⟨⟨g, gT, gw, gr⟩, gi, -⟩ := tuneAndRead_cases k hk hz (f - k.probeOffsetHz) .low t
  generalize q2 : tuneAndRead k (f - k.probeOffsetHz) .low t = b at *
  obtain ⟨r2, u⟩ := b
  have both : Tunes k 2 s u (h ++ g) := hT.trans gT
  have img : u.w = tunedImage k (f - k.probeOffsetHz) .low s.w := by
    have h1 : t.w = tunedImage k (f + k.probeOffsetHz) .high s.w := hi
    have h2 : u.w = tunedImage k (f - k.probeOffsetHz) .low t.w := gi
    rw [h2, h1, tunedImage_tunedImage]
  unfold optimize
  rw [q]
  cases r with
  | commError => exact .inr ⟨h, t, rfl, hT.mono (by omega), .inl hi⟩
  | ok =>
    simp only [q2]
    cases r2 with
    | commError => exact .inr ⟨_, u, rfl, both, .inr img⟩
    | ok => exact .inl ⟨_, u, _, rfl, both, by simp [hw, gw], by simp; omega, img⟩
    | notReady => exact .inl ⟨_, u, _, rfl, both, by simp [hw, gw], by simp; omega, img⟩
  | notReady =>
    simp only [q2]
    cases r2 with
    | commError => exact .inr ⟨_, u, rfl, both, .inr img⟩
    | ok => exact .inl ⟨_, u, _, rfl, both, by simp [hw, gw], by simp; omega, img⟩
    | notReady => exact .inl ⟨_, u, _, rfl, both, by simp [hw, gw], by simp; omega, img⟩

/-- The optimized tune of a station (R185): with three flushes, the station's image under some side, unless a COMM_ERROR
ends it early. -/
theorem optimizedTune_cases (k : Config) (hk : 0 < k.readAttempts) (hz : 0 < k.zeroAttempts) (f : Int) (s : State) :
    ∃ h, Tunes k 3 s (optimizedTune k f s).2 h ∧
      ((optimizedTune k f s).1 ≠ .commError → writes h = 3 ∧ 3 ≤ reads h ∧
        ∃ sd, (optimizedTune k f s).2.w = tunedImage k f sd s.w) ∧
      (∃ g sd, (optimizedTune k f s).2.w = tunedImage k g sd s.w) ∧
      ((optimizedTune k f s).1 = .ok → rdPll k (optimizedTune k f s).2.rd ≠ 0#14 ∧
        (optimizedTune k f s).2.rdValid = true ∧
        ∃ old : Status, old.readTimeout = false ∧ (optimizedTune k f s).2.st =
          decodedStatus k (side (optimizedTune k f s).2.w) (optimizedTune k f s).2.rd old) := by
  rcases optimize_cases k hk hz f s with ⟨h, t, sd, e, hT, hw, hr, hi⟩ | ⟨h, t, e, hT, hi⟩
  · have q : optimizedTune k f s = tuneAndRead k f sd t := by simp [optimizedTune, e]
    rw [q]
    obtain ⟨⟨g, gT, gw, gr⟩, gi, ge⟩ := tuneAndRead_cases k hk hz f sd t
    have img : (tuneAndRead k f sd t).2.w = tunedImage k f sd s.w := by rw [gi, hi, tunedImage_tunedImage]
    refine ⟨h ++ g, hT.trans gT, fun _ => ⟨by simp [hw, gw], by simp; omega, sd, img⟩, ⟨f, sd, img⟩, fun hok => ?_⟩
    obtain ⟨g1, g2, g3⟩ := ge.ok hok
    refine ⟨g1, g2, { (flush k (commit k f sd t)).st with readTimeout := false }, rfl, ?_⟩
    rw [g3]
    congr 1
    rw [gi, flush_w, commit_eq]
  · have q : optimizedTune k f s = (.commError, t) := by simp [optimizedTune, e]
    rw [q]
    refine ⟨h, hT.mono (by omega), by simp, ?_, by simp⟩
    rcases hi with hi | hi
    exacts [⟨_, _, hi⟩, ⟨_, _, hi⟩]

/-- A NOT_READY station tune leaves a frame with a zero PLL word in Rd (R155, R185). -/
theorem optimizedTune_notReady (k : Config) (hk : 0 < k.readAttempts) (hz : 0 < k.zeroAttempts) (f : Int) (s : State)
    (h : (optimizedTune k f s).1 = .notReady) : rdPll k (optimizedTune k f s).2.rd = 0#14 := by
  rcases optimize_cases k hk hz f s with ⟨-, t, sd, e, -⟩ | ⟨-, t, e, -⟩
  · have q : optimizedTune k f s = tuneAndRead k f sd t := by simp [optimizedTune, e]
    rw [q] at h ⊢
    rcases (tuneAndRead_cases k hk hz f sd t).2.2.notReady h with ⟨-, h0⟩ | ⟨h1, -⟩
    · omega
    · exact h1
  · have q : optimizedTune k f s = (.commError, t) := by simp [optimizedTune, e]
    rw [q] at h
    cases h

/-- The image SET_STATION starts from: unmuted, search mode off (43_search_fsm.md R185). -/
def clearedImage (w : Image) : Image := putSearchMode (putMute w false) false

@[simp] theorem mute_clearedImage (w : Image) : mute (clearedImage w) = false := by simp [clearedImage]
@[simp] theorem searchMode_clearedImage (w : Image) : searchMode (clearedImage w) = false := by simp [clearedImage]
@[simp] theorem pllWord_clearedImage (w : Image) : pllWord (clearedImage w) = pllWord w := by simp [clearedImage]
@[simp] theorem b2_clearedImage (w : Image) : (clearedImage w).b2 = w.b2 := rfl
@[simp] theorem b3_clearedImage (w : Image) : (clearedImage w).b3 = w.b3 := rfl
@[simp] theorem b4_clearedImage (w : Image) : (clearedImage w).b4 = w.b4 := rfl

theorem setStation_eq (k : Config) (f : Int) (s : State) :
    setStation k f s = optimizedTune k f { s with w := clearedImage s.w } := rfl

end Sys2Proof.Machine
end

