-- ==== Sys2Proof/Laws/Codec.lean ====
section
/-! SUPPORT. The codec at the parameters of the machine (40_codec.md R100 to R104, 42_optimizer.md R171), as linear
arithmetic: the forms that omega decides. -/

namespace Sys2Proof.Machine

@[simp] theorem params_readAttempts : params.readAttempts = 5 := rfl
@[simp] theorem params_zeroAttempts : params.zeroAttempts = 5 := rfl
@[simp] theorem params_settleMs : params.settleMs = 35 := rfl
@[simp] theorem params_chipAddr : params.chipAddr = 0x60#7 := rfl
@[simp] theorem params_probeOffsetHz : params.probeOffsetHz = 450000 := rfl
@[simp] theorem params_searchStepHz : params.searchStepHz = 100000 := rfl
@[simp] theorem params_presetCap : params.presetCap = none := rfl
@[simp] theorem params_fIfHz : params.fIfHz = 225000 := rfl
@[simp] theorem params_pllStepHz : params.pllStepHz = 8192 := rfl
@[simp] theorem params_imageBytes : params.imageBytes = 5 := rfl
@[simp] theorem params_pllBits : params.pllBits = 14 := rfl
@[simp] theorem pllMax_params : pllMax params = 16383 := rfl

/-! ## The registers and fields at the default widths -/

theorem freqReg_params (f : Int) : freqReg params f = BitVec.ofInt 27 f := BitVec.setWidth_eq _
@[simp] theorem rdPll_params (m : Image) : rdPll params m = pllWord m := by
  show ((pllWord m).setWidth 14).setWidth 14 = _
  simp
@[simp] theorem rdIfc_params (m : Image) : rdIfc params m = getField m.b2 0 7 := BitVec.setWidth_eq _
@[simp] theorem rdAdc_params (m : Image) : rdAdc params m = getField m.b3 4 4 := BitVec.setWidth_eq _

/-- The IF count of a frame is byte 2 bits 6:0 (30_encoding.md R76). -/
theorem rdIfc_toNat (m : Image) : (rdIfc params m).toNat = m.b2.toNat % 128 := by
  simp [getField, BitVec.extractLsb'_toNat]

/-- The ADC level of a frame is byte 3 bits 7:4 (R76). -/
theorem rdAdc_toNat (m : Image) : (rdAdc params m).toNat = m.b3.toNat / 16 := by
  have h := m.b3.isLt
  simp [getField, BitVec.extractLsb'_toNat, Nat.shiftRight_eq_div_pow]
  omega

/-- The PLL word of a frame is byte 0 bits 5:0 and byte 1 (R76). -/
theorem rdPll_toNat (m : Image) : (rdPll params m).toNat = m.b0.toNat % 64 * 256 + m.b1.toNat := by
  rw [rdPll_params, pllWord, BitVec.toNat_append, BitVec.extractLsb'_toNat, ← Nat.shiftLeft_add_eq_or_of_lt m.b1.isLt]
  simp [Nat.shiftLeft_eq]

/-- A register of FREQ_OPERAND_BITS holds every frequency below 2^FREQ_OPERAND_BITS. -/
theorem freqReg_toNat (k : Config) (hk : k.freqOperandBits ≤ 27) (f : Int) (h0 : 0 ≤ f)
    (h : f.toNat < 2 ^ k.freqOperandBits) : ((freqReg k f).toNat : Int) = f := by
  have hp : 2 ^ k.freqOperandBits ≤ 2 ^ 27 := Nat.pow_le_pow_right (by omega) hk
  obtain ⟨n, rfl⟩ := Int.eq_ofNat_of_zero_le h0
  have hn : n < 2 ^ k.freqOperandBits := by simpa using h
  rw [freqReg, BitVec.toNat_setWidth, BitVec.toNat_ofInt]
  have e : ((n : Int) % ((2 ^ k.freqOperandBits : Nat) : Int)).toNat = n := by
    rw [← Int.natCast_mod, Int.toNat_natCast, Nat.mod_eq_of_lt hn]
  rw [e, Nat.mod_eq_of_lt (by omega)]

theorem pllRaw_params (f : Int) (sd : Side) : pllRaw params f sd = (f + sgn sd * 225000 + 4096) / 8192 := rfl

theorem pllRaw_high (f : Int) : pllRaw params f .high = (f + 225000 + 4096) / 8192 := by
  rw [pllRaw_params]; simp [sgn]

theorem pllRaw_low (f : Int) : pllRaw params f .low = (f - 225000 + 4096) / 8192 := by
  rw [pllRaw_params]; simp [sgn]; omega

theorem freqOf_params (p : Pll) (sd : Side) : freqOf params p sd = (p.toNat : Int) * 8192 - sgn sd * 225000 := rfl

/-- `tunable` is one interval (42_optimizer.md R171). -/
theorem tunable_params (f : Int) : tunable params f ↔ 670904 ≤ f ∧ f ≤ 133538631 := by
  simp only [tunable, pllOK, pllRaw_high, pllRaw_low, pllMax_params, params_probeOffsetHz]
  omega

/-- The PLL word of a frequency that fits is its PLL value (40_codec.md R105). -/
theorem pllFor_toNat (k : Config) (hk : k.pllBits ≤ 14) (f : Int) (sd : Side) (h : pllOK k f sd) :
    ((pllFor k f sd).toNat : Int) = pllRaw k f sd := by
  obtain ⟨h1, h2⟩ := h
  have hp : (2 : Int) ^ k.pllBits ≤ 2 ^ 14 := by exact_mod_cast Nat.pow_le_pow_right (by omega) hk
  rw [pllMax] at h2
  rw [pllFor, BitVec.toNat_ofInt]
  omega

theorem bounds_params (w : Image) :
    bounds params w = if band w then (76000000, 91000000) else (87500000, 108000000) := by
  unfold bounds bandBounds
  split <;> rfl

end Sys2Proof.Machine
end

