-- ==== Sys2Proof/Laws/Encoding.lean ====
section
/-! SUPPORT. What the encoder's layout and the decoder's forms do to each other (30_encoding.md R80, R81): the opcode and the
operand bits of a laid-out word, and one round trip for each form. -/

namespace Sys2Proof

/-- The opcode of a laid-out word (R80). -/
@[simp] theorem opField_layOut (op : BitVec 5) (x : Freq) : opField (layOut op x) = op := by
  ext i hi
  have : 27 + i < 32 := by omega
  simp [opField, layOut, this, hi]

/-- Operand bit `i` of a laid-out word (R80). -/
theorem getLsbD_layOut (op : BitVec 5) (x : Freq) (i : Nat) (h : i < 27) :
    (layOut op x).getLsbD i = x.getLsbD i := by
  have : i < 32 := by omega
  simp [layOut, this, h]

/-- Opcode bit `j` of a laid-out word (R80). -/
theorem getLsbD_layOut_opcode (op : BitVec 5) (x : Freq) (j : Nat) (h : j < 5) :
    (layOut op x).getLsbD (27 + j) = op.getLsbD j := by
  have : 27 + j < 32 := by omega
  simp [layOut, this]

/-- An operand field of a laid-out word (R80). -/
theorem extract_layOut (op : BitVec 5) (x : Freq) (lo n : Nat) (h : lo + n ≤ 27) :
    (layOut op x).extractLsb' lo n = x.extractLsb' lo n := by
  ext i hi
  rw [BitVec.getElem_extractLsb', BitVec.getElem_extractLsb', getLsbD_layOut _ _ _ (by omega)]

/-- Form F (R81). -/
theorem decodeF_encodeF (op : BitVec 5) (f : Freq) (c : Freq → Instr) : decodeF (encodeF op f) c = .ok (c f) := by
  unfold decodeF encodeF
  rw [extract_layOut _ _ _ _ (by omega)]
  simp

/-- Form B (R81). -/
theorem decodeB_encodeB (op : BitVec 5) (v : Bool) (c : Bool → Instr) : decodeB (encodeB op v) c = .ok (c v) := by
  unfold decodeB encodeB
  rw [extract_layOut _ _ _ _ (by omega), getLsbD_layOut _ _ _ (by omega)]
  cases v <;> simp

/-- Form L (R81). -/
theorem decodeL_encodeL (op : BitVec 5) (lvl : Level) (c : Level → Instr) :
    decodeL (encodeL op lvl) c = .ok (c lvl) := by
  unfold decodeL encodeL
  rw [extract_layOut _ _ _ _ (by omega), extract_layOut _ _ _ _ (by omega)]
  have h : ∀ v : Level, (v.setWidth 27).extractLsb' 3 24 = 0#24 ∧ (v.setWidth 27).extractLsb' 0 3 = v := by decide
  rw [if_pos (h lvl).1, (h lvl).2]

/-- The operand of form S, field by field (R81). -/
theorem operandS_fields : ∀ (up cap : Bool) (lvl : Level),
    let x := (BitVec.ofBool cap).setWidth 27 <<< 4 ||| lvl.setWidth 27 <<< 1 ||| (BitVec.ofBool up).setWidth 27
    x.extractLsb' 5 22 = 0#22 ∧ x.extractLsb' 1 3 = lvl ∧ x.getLsbD 0 = up ∧ x.getLsbD 4 = cap := by decide

/-- Form S (R81). -/
theorem decodeS_encodeS (op : BitVec 5) (up cap : Bool) (lvl : Level) (c : Bool → Level → Bool → Instr) :
    decodeS (encodeS op up lvl cap) c = .ok (c up lvl cap) := by
  unfold decodeS encodeS
  rw [extract_layOut _ _ _ _ (by omega), extract_layOut _ _ _ _ (by omega), getLsbD_layOut _ _ _ (by omega),
    getLsbD_layOut _ _ _ (by omega)]
  obtain ⟨h1, h2, h3, h4⟩ := operandS_fields up cap lvl
  rw [if_pos h1, h2, h3, h4]

/-- Form N (R81). -/
theorem decodeN_encodeN (op : BitVec 5) (i : Instr) : decodeN (encodeN op) i = .ok i := by
  unfold decodeN encodeN
  rw [extract_layOut _ _ _ _ (by omega)]
  simp

/-- A word is its opcode and its operand (R80). -/
theorem layOut_fields (w : Word) : layOut (opField w) (w.extractLsb' 0 27) = w := by
  apply BitVec.eq_of_getLsbD_eq
  intro i hi
  by_cases h : i < 27
  · rw [getLsbD_layOut _ _ _ h]
    simp [h]
  · obtain ⟨j, rfl⟩ : ∃ j, i = 27 + j := ⟨i - 27, by omega⟩
    have : j < 5 := by omega
    simp [layOut, opField, hi, this]

/-! ## The row an opcode picks (30_encoding.md R82, R85) -/

theorem decodeCmd_setFreq (w : Word) (h : opField w = 0x01#5) : decodeCmd w = decodeF w .setFreq := by
  unfold decodeCmd
  rw [h]
  rfl

theorem decodeCmd_setMute (w : Word) (h : opField w = 0x02#5) : decodeCmd w = decodeB w .setMute := by
  unfold decodeCmd
  rw [h]
  rfl

theorem decodeCmd_setSearchMode (w : Word) (h : opField w = 0x03#5) : decodeCmd w = decodeB w .setSearchMode := by
  unfold decodeCmd
  rw [h]
  rfl

theorem decodeCmd_setSearchDir (w : Word) (h : opField w = 0x04#5) : decodeCmd w = decodeB w .setSearchDir := by
  unfold decodeCmd
  rw [h]
  rfl

theorem decodeCmd_setStopLevel (w : Word) (h : opField w = 0x05#5) : decodeCmd w = decodeL w .setStopLevel := by
  unfold decodeCmd
  rw [h]
  rfl

theorem decodeCmd_setInjection (w : Word) (h : opField w = 0x06#5) : decodeCmd w = decodeB w .setInjection := by
  unfold decodeCmd
  rw [h]
  rfl

theorem decodeCmd_setMono (w : Word) (h : opField w = 0x07#5) : decodeCmd w = decodeB w .setMono := by
  unfold decodeCmd
  rw [h]
  rfl

theorem decodeCmd_setMuteRight (w : Word) (h : opField w = 0x08#5) : decodeCmd w = decodeB w .setMuteRight := by
  unfold decodeCmd
  rw [h]
  rfl

theorem decodeCmd_setMuteLeft (w : Word) (h : opField w = 0x09#5) : decodeCmd w = decodeB w .setMuteLeft := by
  unfold decodeCmd
  rw [h]
  rfl

theorem decodeCmd_setSwp1 (w : Word) (h : opField w = 0x0A#5) : decodeCmd w = decodeB w .setSwp1 := by
  unfold decodeCmd
  rw [h]
  rfl

theorem decodeCmd_setSwp2 (w : Word) (h : opField w = 0x0B#5) : decodeCmd w = decodeB w .setSwp2 := by
  unfold decodeCmd
  rw [h]
  rfl

theorem decodeCmd_setStandby (w : Word) (h : opField w = 0x0C#5) : decodeCmd w = decodeB w .setStandby := by
  unfold decodeCmd
  rw [h]
  rfl

theorem decodeCmd_setBand (w : Word) (h : opField w = 0x0D#5) : decodeCmd w = decodeB w .setBand := by
  unfold decodeCmd
  rw [h]
  rfl

theorem decodeCmd_setSoftMute (w : Word) (h : opField w = 0x0E#5) : decodeCmd w = decodeB w .setSoftMute := by
  unfold decodeCmd
  rw [h]
  rfl

theorem decodeCmd_setHighCut (w : Word) (h : opField w = 0x0F#5) : decodeCmd w = decodeB w .setHighCut := by
  unfold decodeCmd
  rw [h]
  rfl

theorem decodeCmd_setNoiseCancel (w : Word) (h : opField w = 0x10#5) : decodeCmd w = decodeB w .setNoiseCancel := by
  unfold decodeCmd
  rw [h]
  rfl

theorem decodeCmd_setSearchInd (w : Word) (h : opField w = 0x11#5) : decodeCmd w = decodeB w .setSearchInd := by
  unfold decodeCmd
  rw [h]
  rfl

theorem decodeCmd_setDeemph (w : Word) (h : opField w = 0x12#5) : decodeCmd w = decodeB w .setDeemph := by
  unfold decodeCmd
  rw [h]
  rfl

theorem decodeCmd_flush (w : Word) (h : opField w = 0x13#5) : decodeCmd w = decodeN w .flush := by
  unfold decodeCmd
  rw [h]
  rfl

theorem decodeCmd_readRaw (w : Word) (h : opField w = 0x14#5) : decodeCmd w = decodeN w .readRaw := by
  unfold decodeCmd
  rw [h]
  rfl

theorem decodeCmd_readDecode (w : Word) (h : opField w = 0x15#5) : decodeCmd w = decodeN w .readDecode := by
  unfold decodeCmd
  rw [h]
  rfl

theorem decodeCmd_optimize (w : Word) (h : opField w = 0x16#5) : decodeCmd w = decodeF w .optimize := by
  unfold decodeCmd
  rw [h]
  rfl

theorem decodeCmd_setStation (w : Word) (h : opField w = 0x17#5) : decodeCmd w = decodeF w .setStation := by
  unfold decodeCmd
  rw [h]
  rfl

theorem decodeCmd_searchStep (w : Word) (h : opField w = 0x18#5) : decodeCmd w = decodeS w .searchStep := by
  unfold decodeCmd
  rw [h]
  rfl

theorem decodeCmd_scanBegin (w : Word) (h : opField w = 0x19#5) : decodeCmd w = decodeL w .scanBegin := by
  unfold decodeCmd
  rw [h]
  rfl

theorem decodeCmd_scanStep (w : Word) (h : opField w = 0x1A#5) : decodeCmd w = decodeN w .scanStep := by
  unfold decodeCmd
  rw [h]
  rfl

theorem decodeCmd_presetNext (w : Word) (h : opField w = 0x1B#5) : decodeCmd w = decodeN w .presetNext := by
  unfold decodeCmd
  rw [h]
  rfl

theorem decodeCmd_presetPrev (w : Word) (h : opField w = 0x1C#5) : decodeCmd w = decodeN w .presetPrev := by
  unfold decodeCmd
  rw [h]
  rfl

theorem decodeCmd_presetDelete (w : Word) (h : opField w = 0x1D#5) : decodeCmd w = decodeN w .presetDelete := by
  unfold decodeCmd
  rw [h]
  rfl

end Sys2Proof
end

