-- ==== Sys2Proof/Laws/Frames.lean ====
section
/-! SUPPORT. What the reading procedures do on answers that are lined up (20_memory.md R55): on one settled frame, on a silent
bus, and on frames whose PLL word stays zero (41_bus_status.md R151). -/

namespace Sys2Proof.Machine

/-- The state after one settled frame was read and decoded under the side in W (R142, R146). -/
def settledRead (k : Config) (m : Image) (s : State) : State :=
  { takeFrame m (busRead k s) with st := decodedStatus k (side s.w) m { s.st with readTimeout := false } }

/-- The state after a tune whose read gave a settled frame. -/
def settledTune (k : Config) (f : Int) (sd : Side) (m : Image) (s : State) : State :=
  settledRead k m (flush k { s with w := tunedImage k f sd s.w })

/-- A settled frame ends `readAndDecode` with OK at the first attempt (R151). -/
theorem readAndDecode_settled (k : Config) (hk : 0 < k.readAttempts) (hz : 0 < k.zeroAttempts) (m : Image) (s : State)
    (ha : nextAnswer s = .bytes m) (hm : rdPll k m ≠ 0#14) : readAndDecode k s = (.ok, settledRead k m s) := by
  obtain ⟨a, hka⟩ : ∃ a, k.readAttempts = a + 1 := ⟨k.readAttempts - 1, by omega⟩
  obtain ⟨b, hkb⟩ : ∃ b, k.zeroAttempts = b + 1 := ⟨k.zeroAttempts - 1, by omega⟩
  have hr : readRaw k s = (true, takeFrame m (busRead k s)) := by unfold readRaw; rw [ha]
  have hg : readGuard k k.readAttempts s = (true, takeFrame m (busRead k s)) := by rw [hka]; simp [readGuard, hr]
  have hd : decodeStatus k (takeFrame m (busRead k s)) = (true, settledRead k m s) := by
    unfold decodeStatus
    exact if_neg hm
  unfold readAndDecode
  rw [hkb]
  simp [zeroGuard, hg, hd]

/-- A tune on a settled frame (R170, R185). -/
theorem tuneAndRead_settled (k : Config) (hk : 0 < k.readAttempts) (hz : 0 < k.zeroAttempts) (f : Int) (sd : Side)
    (m : Image) (rest : List ReadAnswer) (s : State) (ha : s.answers = .bytes m :: rest) (hm : rdPll k m ≠ 0#14) :
    tuneAndRead k f sd s = (.ok, settledTune k f sd m s) := by
  unfold tuneAndRead
  rw [commit_eq]
  exact readAndDecode_settled k hk hz m _ (by unfold nextAnswer; simp [ha]) hm

/-! ## The fields after a settled tune -/

@[simp] theorem settledTune_w (k : Config) (f : Int) (sd : Side) (m : Image) (s : State) :
    (settledTune k f sd m s).w = tunedImage k f sd s.w := rfl
@[simp] theorem settledTune_rd (k : Config) (f : Int) (sd : Side) (m : Image) (s : State) :
    (settledTune k f sd m s).rd = m := rfl
@[simp] theorem settledTune_rdValid (k : Config) (f : Int) (sd : Side) (m : Image) (s : State) :
    (settledTune k f sd m s).rdValid = true := rfl
@[simp] theorem settledTune_st (k : Config) (f : Int) (sd : Side) (m : Image) (s : State) :
    (settledTune k f sd m s).st = decodedStatus k sd m { s.st with readTimeout := false } := by
  simp [settledTune, settledRead, flush, settle, busWrite, emit]
@[simp] theorem settledTune_p (k : Config) (f : Int) (sd : Side) (m : Image) (s : State) :
    (settledTune k f sd m s).p = s.p := rfl
@[simp] theorem settledTune_scanActive (k : Config) (f : Int) (sd : Side) (m : Image) (s : State) :
    (settledTune k f sd m s).scanActive = s.scanActive := rfl
@[simp] theorem settledTune_scanIdx (k : Config) (f : Int) (sd : Side) (m : Image) (s : State) :
    (settledTune k f sd m s).scanIdx = s.scanIdx := rfl
@[simp] theorem settledTune_scanCode (k : Config) (f : Int) (sd : Side) (m : Image) (s : State) :
    (settledTune k f sd m s).scanCode = s.scanCode := rfl
@[simp] theorem settledTune_l (k : Config) (f : Int) (sd : Side) (m : Image) (s : State) :
    (settledTune k f sd m s).l = s.l := rfl
@[simp] theorem settledTune_c (k : Config) (f : Int) (sd : Side) (m : Image) (s : State) :
    (settledTune k f sd m s).c = s.c := rfl
@[simp] theorem settledTune_res (k : Config) (f : Int) (sd : Side) (m : Image) (s : State) :
    (settledTune k f sd m s).res = s.res := rfl
@[simp] theorem settledTune_resSide (k : Config) (f : Int) (sd : Side) (m : Image) (s : State) :
    (settledTune k f sd m s).resSide = s.resSide := rfl
@[simp] theorem settledTune_port (k : Config) (f : Int) (sd : Side) (m : Image) (s : State) :
    (settledTune k f sd m s).port = s.port := rfl
@[simp] theorem settledTune_answers (k : Config) (f : Int) (sd : Side) (m : Image) (s : State) :
    (settledTune k f sd m s).answers = s.answers.tail := rfl

/-- The bus events of a settled tune: Write, Settle, Read (R140, R142). -/
theorem settledTune_events (k : Config) (f : Int) (sd : Side) (m : Image) (rest : List ReadAnswer) (s : State)
    (ha : s.answers = .bytes m :: rest) :
    (settledTune k f sd m s).events = s.events ++
      [.write k.chipAddr (tunedImage k f sd s.w), .settle k.settleMs, .read k.chipAddr k.imageBytes (.bytes m)] := by
  show (busRead k (flush k _)).events = _
  simp [busRead, nextAnswer, ha]

/-- The optimizer on two settled frames compares their levels (R170, R174). -/
theorem optimize_settled (k : Config) (hk : 0 < k.readAttempts) (hz : 0 < k.zeroAttempts) (f : Int) (m1 m2 : Image)
    (rest : List ReadAnswer) (s : State) (ha : s.answers = .bytes m1 :: .bytes m2 :: rest) (h1 : rdPll k m1 ≠ 0#14)
    (h2 : rdPll k m2 ≠ 0#14) :
    optimize k f s = (some (choose (rdAdc k m1) (rdAdc k m2)),
      settledTune k (f - k.probeOffsetHz) .low m2 (settledTune k (f + k.probeOffsetHz) .high m1 s)) := by
  have e1 := tuneAndRead_settled k hk hz (f + k.probeOffsetHz) .high m1 _ s ha h1
  have a1 : (settledTune k (f + k.probeOffsetHz) .high m1 s).answers = .bytes m2 :: rest := by
    rw [settledTune_answers, ha]
    rfl
  have e2 := tuneAndRead_settled k hk hz (f - k.probeOffsetHz) .low m2 _ _ a1 h2
  unfold optimize
  rw [e1]
  simp only [e2]
  rfl

/-- The optimized tune of a station on three settled frames (R185). -/
theorem optimizedTune_settled (k : Config) (hk : 0 < k.readAttempts) (hz : 0 < k.zeroAttempts) (f : Int)
    (m1 m2 m3 : Image) (rest : List ReadAnswer) (s : State)
    (ha : s.answers = .bytes m1 :: .bytes m2 :: .bytes m3 :: rest) (h1 : rdPll k m1 ≠ 0#14) (h2 : rdPll k m2 ≠ 0#14)
    (h3 : rdPll k m3 ≠ 0#14) :
    optimizedTune k f s = (.ok, settledTune k f (choose (rdAdc k m1) (rdAdc k m2)) m3
      (settledTune k (f - k.probeOffsetHz) .low m2 (settledTune k (f + k.probeOffsetHz) .high m1 s))) := by
  have e := optimize_settled k hk hz f m1 m2 _ s ha h1 h2
  have a2 : (settledTune k (f - k.probeOffsetHz) .low m2 (settledTune k (f + k.probeOffsetHz) .high m1 s)).answers =
      .bytes m3 :: rest := by
    rw [settledTune_answers, settledTune_answers, ha]
    rfl
  unfold optimizedTune
  rw [e]
  exact tuneAndRead_settled k hk hz f _ m3 rest _ a2 h3

/-- The state after `n` timeouts in a row (R142). -/
def silentReads (k : Config) : Nat → State → State
  | 0, s => s
  | n + 1, s => silentReads k n (takeTimeout (busRead k s))

/-- `n` timeouts lined up exhaust a timeout guard of `n` attempts (R151). -/
theorem readGuard_silent (k : Config) (n : Nat) (rest : List ReadAnswer) (s : State)
    (ha : s.answers = List.replicate n .timeout ++ rest) : readGuard k n s = (false, silentReads k n s) := by
  induction n generalizing s with
  | zero => rfl
  | succ n ih =>
    have hr : readRaw k s = (false, takeTimeout (busRead k s)) := by
      unfold readRaw nextAnswer
      rw [ha]
      rfl
    have ha' : (takeTimeout (busRead k s)).answers = List.replicate n .timeout ++ rest := by
      show s.answers.tail = _
      rw [ha]
      rfl
    simp [readGuard, hr, ih _ ha', silentReads]

/-- A silent bus ends `readAndDecode` with COMM_ERROR (R151). -/
theorem readAndDecode_silent (k : Config) (hz : 0 < k.zeroAttempts) (rest : List ReadAnswer) (s : State)
    (ha : s.answers = List.replicate k.readAttempts .timeout ++ rest) :
    readAndDecode k s = (.commError, silentReads k k.readAttempts s) := by
  obtain ⟨b, hkb⟩ : ∃ b, k.zeroAttempts = b + 1 := ⟨k.zeroAttempts - 1, by omega⟩
  unfold readAndDecode
  rw [hkb]
  simp [zeroGuard, readGuard_silent k _ rest s ha]

/-- The state after `n` frames `z` were read one after the other (R142). -/
def unsettledReads (k : Config) (z : Image) : Nat → State → State
  | 0, s => s
  | n + 1, s => unsettledReads k z n (takeFrame z (busRead k s))

/-- `n` frames with a zero PLL word lined up end the PLL-zero guard with NOT_READY (R151). -/
theorem zeroGuard_unsettled (k : Config) (hk : 0 < k.readAttempts) (z : Image) (hzero : rdPll k z = 0#14) (n : Nat)
    (rest : List ReadAnswer) (s : State) (ha : s.answers = List.replicate n (.bytes z) ++ rest) :
    zeroGuard k n s = (.notReady, unsettledReads k z n s) := by
  obtain ⟨a, hka⟩ : ∃ a, k.readAttempts = a + 1 := ⟨k.readAttempts - 1, by omega⟩
  induction n generalizing s with
  | zero => rfl
  | succ n ih =>
    have hr : readRaw k s = (true, takeFrame z (busRead k s)) := by
      unfold readRaw nextAnswer
      rw [ha]
      rfl
    have hg : readGuard k k.readAttempts s = (true, takeFrame z (busRead k s)) := by rw [hka]; simp [readGuard, hr]
    have hd : decodeStatus k (takeFrame z (busRead k s)) = (false, takeFrame z (busRead k s)) := by
      unfold decodeStatus
      exact if_pos hzero
    have ha' : (takeFrame z (busRead k s)).answers = List.replicate n (.bytes z) ++ rest := by
      show s.answers.tail = _
      rw [ha]
      rfl
    simp [zeroGuard, hg, hd, ih _ ha', unsettledReads]

end Sys2Proof.Machine
end

