-- ==== Sys2Proof/Laws/PerInstr.lean ====
section
/-! SUPPORT. One fact per instruction about its word: it selects, in the match and mask table, the row that bears its
mnemonic (30_encoding.md R82). The table (WellFormed.lean) and the encoder (Decode.lean) are written apart from each other. -/

namespace Sys2Proof.Laws.Encoding

/-- The word of `i` selects a row of the opcode map, and that row bears the mnemonic of `i`. -/
def Statement (i : Instr) : Prop :=
  ∃ r ∈ opRows, encode i &&& r.maskWord = r.matchWord ∧ r.mnemonic = mnemonic i

/-- A laid-out word selects a row whose mask sees the opcode and whose must-be-zero bits the operand has clear. -/
theorem layOut_selects (op : BitVec 5) (x y : Freq) (h : x &&& y = 0#27) :
    layOut op x &&& layOut 0x1F#5 y = layOut op 0#27 := by
  apply BitVec.eq_of_getLsbD_eq
  intro i hi
  by_cases hlt : i < 27
  · have := congrArg (fun v => v.getLsbD i) h
    simp only [BitVec.getLsbD_and] at this ⊢
    simpa only [getLsbD_layOut _ _ _ hlt] using this
  · obtain ⟨j, rfl⟩ : ∃ j, i = 27 + j := ⟨i - 27, by omega⟩
    have : j < 5 := by omega
    have hall : (0x1F#5).getLsbD j = true := (by decide : ∀ j : Fin 5, (0x1F#5).getLsbD j = true) ⟨j, this⟩
    rw [BitVec.getLsbD_and, getLsbD_layOut_opcode _ _ _ this, getLsbD_layOut_opcode _ _ _ this,
      getLsbD_layOut_opcode _ _ _ this, hall, Bool.and_true]

theorem selectsF (op : BitVec 5) (f : Freq) : encodeF op f &&& layOut 0x1F#5 0x0000000#27 = layOut op 0#27 :=
  layOut_selects op _ _ (by simp)

theorem selectsB (op : BitVec 5) (v : Bool) : encodeB op v &&& layOut 0x1F#5 0x7FFFFFE#27 = layOut op 0#27 :=
  layOut_selects op _ _ (by cases v <;> decide)

theorem selectsL (op : BitVec 5) (lvl : Level) : encodeL op lvl &&& layOut 0x1F#5 0x7FFFFF8#27 = layOut op 0#27 :=
  layOut_selects op _ _ ((by decide : ∀ lvl : Level, lvl.setWidth 27 &&& 0x7FFFFF8#27 = 0#27) lvl)

theorem selectsS (op : BitVec 5) (up cap : Bool) (lvl : Level) :
    encodeS op up lvl cap &&& layOut 0x1F#5 0x7FFFFE0#27 = layOut op 0#27 :=
  layOut_selects op _ _ ((by decide : ∀ (up cap : Bool) (lvl : Level),
    ((BitVec.ofBool cap).setWidth 27 <<< 4 ||| lvl.setWidth 27 <<< 1 ||| (BitVec.ofBool up).setWidth 27) &&&
      0x7FFFFE0#27 = 0#27) up cap lvl)

theorem selectsN (op : BitVec 5) : encodeN op &&& layOut 0x1F#5 0x7FFFFFF#27 = layOut op 0#27 :=
  layOut_selects op _ _ (by simp)

theorem setFreq (f : Freq) : Statement (.setFreq f) :=
  ⟨⟨"SET_FREQ", .F, 0x08000000#32, 0xF8000000#32⟩, by decide, selectsF _ _, rfl⟩

theorem setMute (v : Bool) : Statement (.setMute v) :=
  ⟨⟨"SET_MUTE", .B, 0x10000000#32, 0xFFFFFFFE#32⟩, by decide, selectsB _ _, rfl⟩

theorem setSearchMode (v : Bool) : Statement (.setSearchMode v) :=
  ⟨⟨"SET_SEARCH_MODE", .B, 0x18000000#32, 0xFFFFFFFE#32⟩, by decide, selectsB _ _, rfl⟩

theorem setSearchDir (v : Bool) : Statement (.setSearchDir v) :=
  ⟨⟨"SET_SEARCH_DIR", .B, 0x20000000#32, 0xFFFFFFFE#32⟩, by decide, selectsB _ _, rfl⟩

theorem setStopLevel (lvl : Level) : Statement (.setStopLevel lvl) :=
  ⟨⟨"SET_STOP_LEVEL", .L, 0x28000000#32, 0xFFFFFFF8#32⟩, by decide, selectsL _ _, rfl⟩

theorem setInjection (v : Bool) : Statement (.setInjection v) :=
  ⟨⟨"SET_INJECTION", .B, 0x30000000#32, 0xFFFFFFFE#32⟩, by decide, selectsB _ _, rfl⟩

theorem setMono (v : Bool) : Statement (.setMono v) :=
  ⟨⟨"SET_MONO", .B, 0x38000000#32, 0xFFFFFFFE#32⟩, by decide, selectsB _ _, rfl⟩

theorem setMuteRight (v : Bool) : Statement (.setMuteRight v) :=
  ⟨⟨"SET_MUTE_RIGHT", .B, 0x40000000#32, 0xFFFFFFFE#32⟩, by decide, selectsB _ _, rfl⟩

theorem setMuteLeft (v : Bool) : Statement (.setMuteLeft v) :=
  ⟨⟨"SET_MUTE_LEFT", .B, 0x48000000#32, 0xFFFFFFFE#32⟩, by decide, selectsB _ _, rfl⟩

theorem setSwp1 (v : Bool) : Statement (.setSwp1 v) :=
  ⟨⟨"SET_SWP1", .B, 0x50000000#32, 0xFFFFFFFE#32⟩, by decide, selectsB _ _, rfl⟩

theorem setSwp2 (v : Bool) : Statement (.setSwp2 v) :=
  ⟨⟨"SET_SWP2", .B, 0x58000000#32, 0xFFFFFFFE#32⟩, by decide, selectsB _ _, rfl⟩

theorem setStandby (v : Bool) : Statement (.setStandby v) :=
  ⟨⟨"SET_STANDBY", .B, 0x60000000#32, 0xFFFFFFFE#32⟩, by decide, selectsB _ _, rfl⟩

theorem setBand (v : Bool) : Statement (.setBand v) :=
  ⟨⟨"SET_BAND", .B, 0x68000000#32, 0xFFFFFFFE#32⟩, by decide, selectsB _ _, rfl⟩

theorem setSoftMute (v : Bool) : Statement (.setSoftMute v) :=
  ⟨⟨"SET_SOFT_MUTE", .B, 0x70000000#32, 0xFFFFFFFE#32⟩, by decide, selectsB _ _, rfl⟩

theorem setHighCut (v : Bool) : Statement (.setHighCut v) :=
  ⟨⟨"SET_HIGH_CUT", .B, 0x78000000#32, 0xFFFFFFFE#32⟩, by decide, selectsB _ _, rfl⟩

theorem setNoiseCancel (v : Bool) : Statement (.setNoiseCancel v) :=
  ⟨⟨"SET_NOISE_CANCEL", .B, 0x80000000#32, 0xFFFFFFFE#32⟩, by decide, selectsB _ _, rfl⟩

theorem setSearchInd (v : Bool) : Statement (.setSearchInd v) :=
  ⟨⟨"SET_SEARCH_IND", .B, 0x88000000#32, 0xFFFFFFFE#32⟩, by decide, selectsB _ _, rfl⟩

theorem setDeemph (v : Bool) : Statement (.setDeemph v) :=
  ⟨⟨"SET_DEEMPH", .B, 0x90000000#32, 0xFFFFFFFE#32⟩, by decide, selectsB _ _, rfl⟩

theorem flush : Statement (.flush) :=
  ⟨⟨"FLUSH", .N, 0x98000000#32, 0xFFFFFFFF#32⟩, by decide, selectsN _, rfl⟩

theorem readRaw : Statement (.readRaw) :=
  ⟨⟨"READ_RAW", .N, 0xA0000000#32, 0xFFFFFFFF#32⟩, by decide, selectsN _, rfl⟩

theorem readDecode : Statement (.readDecode) :=
  ⟨⟨"READ_DECODE", .N, 0xA8000000#32, 0xFFFFFFFF#32⟩, by decide, selectsN _, rfl⟩

theorem optimize (f : Freq) : Statement (.optimize f) :=
  ⟨⟨"OPTIMIZE", .F, 0xB0000000#32, 0xF8000000#32⟩, by decide, selectsF _ _, rfl⟩

theorem setStation (f : Freq) : Statement (.setStation f) :=
  ⟨⟨"SET_STATION", .F, 0xB8000000#32, 0xF8000000#32⟩, by decide, selectsF _ _, rfl⟩

theorem searchStep (up : Bool) (lvl : Level) (cap : Bool) : Statement (.searchStep up lvl cap) :=
  ⟨⟨"SEARCH_STEP", .S, 0xC0000000#32, 0xFFFFFFE0#32⟩, by decide, selectsS _ _ _ _, rfl⟩

theorem scanBegin (lvl : Level) : Statement (.scanBegin lvl) :=
  ⟨⟨"SCAN_BEGIN", .L, 0xC8000000#32, 0xFFFFFFF8#32⟩, by decide, selectsL _ _, rfl⟩

theorem scanStep : Statement (.scanStep) :=
  ⟨⟨"SCAN_STEP", .N, 0xD0000000#32, 0xFFFFFFFF#32⟩, by decide, selectsN _, rfl⟩

theorem presetNext : Statement (.presetNext) :=
  ⟨⟨"PRESET_NEXT", .N, 0xD8000000#32, 0xFFFFFFFF#32⟩, by decide, selectsN _, rfl⟩

theorem presetPrev : Statement (.presetPrev) :=
  ⟨⟨"PRESET_PREV", .N, 0xE0000000#32, 0xFFFFFFFF#32⟩, by decide, selectsN _, rfl⟩

theorem presetDelete : Statement (.presetDelete) :=
  ⟨⟨"PRESET_DELETE", .N, 0xE8000000#32, 0xFFFFFFFF#32⟩, by decide, selectsN _, rfl⟩

end Sys2Proof.Laws.Encoding
end

