-- ==== Sys2Proof/Laws/Search.lean ====
section
/-! SUPPORT. What SET_STATION, SEARCH_STEP and SCAN_STEP can do once they drive the bus (43_search_fsm.md R185, R187, R196):
one lemma per shared operation, which says every way it can end. -/

namespace Sys2Proof.Machine

@[simp] theorem imageConst_clearedImage (w : Image) : imageConst (clearedImage w) = imageConst w := rfl

/-- Unmuting and leaving search mode drives no bus event (R185). -/
theorem tunes_cleared (k : Config) (s : State) : Tunes k 0 s { s with w := clearedImage s.w } [] :=
  ⟨rfl, by simp, rfl, fun _ => rfl, rfl, rfl, fun h => h, by simp, by simp⟩

/-- Recording a direction and a level drives no bus event (R187, R195). -/
theorem tunes_recordSearch (k : Config) (up : Bool) (c : StopCode) (s : State) : Tunes k 0 s (recordSearch up c s) [] :=
  ⟨rfl, by simp [recordSearch], rfl, fun _ => rfl, rfl, rfl, fun h => h, by simp, by simp⟩

/-- `setStation` (R185): three flushes and the station's image under some side, unmuted, unless a COMM_ERROR ends it. -/
theorem setStation_cases (k : Config) (hk : 0 < k.readAttempts) (hz : 0 < k.zeroAttempts) (f : Int) (s : State) :
    ∃ h, Tunes k 3 s (setStation k f s).2 h ∧
      ((setStation k f s).1 ≠ .commError → writes h = 3 ∧ 3 ≤ reads h ∧
        ∃ sd, (setStation k f s).2.w = tunedImage k f sd (clearedImage s.w)) ∧
      ∃ g sd, (setStation k f s).2.w = tunedImage k g sd (clearedImage s.w) := by
  rw [setStation_eq]
  obtain ⟨h, hT, a, b, -⟩ := optimizedTune_cases k hk hz f { s with w := clearedImage s.w }
  refine ⟨h, ?_, a, b⟩
  simpa using (tunes_cleared k s).trans hT

/-- The end of an accepted search step (R187, R190, R191): COMM_ERROR, or COMPLETE or PRESET_FULL on the committed and
unmuted station. -/
theorem searchAccepted_cases (k : Config) (hk : 0 < k.readAttempts) (hz : 0 < k.zeroAttempts) (cap : Bool) (s : State) :
    ∃ t h, Tunes k 3 s t h ∧ (∃ g sd, t.w = tunedImage k g sd (clearedImage s.w)) ∧
      (searchAccepted k cap s = finish .commError t ∨
        (writes h = 3 ∧ 3 ≤ reads h ∧ ∃ sd, t.w = tunedImage k s.p.toNat sd (clearedImage s.w)) ∧
          (cap = false ∧ searchAccepted k cap s = finish .complete t ∨
            cap = true ∧ k.presetCap ≠ some s.l.length ∧
              searchAccepted k cap s = finish .complete { t with l := s.l ++ [s.p] } ∨
            cap = true ∧ k.presetCap = some s.l.length ∧ searchAccepted k cap s = finish .presetFull t)) := by
  obtain ⟨h, hT, a, b⟩ := setStation_cases k hk hz s.p.toNat s
  generalize q : setStation k s.p.toNat s = r at *
  obtain ⟨r, t⟩ := r
  have hp : t.p = s.p := hT.p_eq
  have hl : t.l = s.l := hT.l_eq
  refine ⟨t, h, hT, b, ?_⟩
  unfold searchAccepted
  rw [q]
  cases r with
  | commError => exact .inl rfl
  | ok | notReady =>
    refine .inr ⟨a (by simp), ?_⟩
    cases cap with
    | false => exact .inl ⟨rfl, rfl⟩
    | true =>
      by_cases hc : k.presetCap = some s.l.length
      · exact .inr (.inr ⟨rfl, hc, by simp [appendPreset, hl, hc]⟩)
      · exact .inr (.inl ⟨rfl, hc, by simp [appendPreset, hl, hc, hp]⟩)

/-- An in-band search step once P has advanced (R187, R202): it ends at a COMM_ERROR of the probe, is PENDING with the
station's image under some side, or goes on to the accepted end. -/
theorem searchProbe_cases (k : Config) (hk : 0 < k.readAttempts) (hz : 0 < k.zeroAttempts) (c : StopCode) (cap : Bool)
    (s : State) :
    ∃ t h, Tunes k 3 s t h ∧ (∃ g sd, t.w = tunedImage k g sd s.w) ∧
      (searchProbe k c cap s = finish .commError t ∨
        (writes h = 3 ∧ 3 ≤ reads h ∧ ∃ sd, t.w = tunedImage k s.p.toNat sd s.w) ∧
          (searchProbe k c cap s = finish .pending t ∨
            accept k t.st.ifc t.st.adc c ∧ searchProbe k c cap s = searchAccepted k cap t)) := by
  obtain ⟨h, hT, a, b, -⟩ := optimizedTune_cases k hk hz s.p.toNat s
  generalize q : optimizedTune k s.p.toNat s = r at *
  obtain ⟨r, t⟩ := r
  refine ⟨t, h, hT, b, ?_⟩
  unfold searchProbe
  rw [q]
  cases r with
  | commError => exact .inl rfl
  | notReady => exact .inr ⟨a (by simp), .inl rfl⟩
  | ok =>
    refine .inr ⟨a (by simp), ?_⟩
    by_cases hc : accept k t.st.ifc t.st.adc c
    · exact .inr ⟨hc, by simp only [if_pos hc]⟩
    · exact .inl (by simp only [if_neg hc])

/-- The end of an examined scan step: the index advances, and the scan goes on or ends (R196, R198). -/
theorem scanAdvance_cases (k : Config) (s : State) :
    scanFreq k { s with scanIdx := s.scanIdx + 1#16 } ≤ (bounds k s.w).2 ∧
        scanAdvance k s = finish .scanMore { s with scanIdx := s.scanIdx + 1#16 } ∨
    (bounds k s.w).2 < scanFreq k { s with scanIdx := s.scanIdx + 1#16 } ∧
        scanAdvance k s = finish .scanDone { s with scanIdx := s.scanIdx + 1#16, scanActive := false } := by
  unfold scanAdvance
  by_cases h : scanFreq k { s with scanIdx := s.scanIdx + 1#16 } > (bounds k s.w).2
  · exact .inr ⟨h, by rw [if_pos h]; rfl⟩
  · exact .inl ⟨Int.not_lt.mp h, by rw [if_neg h]⟩

/-- Examining one scan frequency (R196, R201, R202, R226): a COMM_ERROR or a full list ends the scan; otherwise the scan
advances, with the frequency appended or not. -/
theorem scanExamine_cases (k : Config) (hk : 0 < k.readAttempts) (hz : 0 < k.zeroAttempts) (f : Int) (s : State) :
    ∃ t h, Tunes k 3 s t h ∧ (∃ g sd, t.w = tunedImage k g sd s.w) ∧
      (scanExamine k f s = endScan .commError t ∨
        (writes h = 3 ∧ 3 ≤ reads h ∧ ∃ sd, t.w = tunedImage k f sd s.w) ∧
          (scanExamine k f s = scanAdvance k t ∨
            accept k t.st.ifc t.st.adc s.scanCode ∧
              (k.presetCap ≠ some s.l.length ∧
                scanExamine k f s = scanAdvance k { t with l := s.l ++ [freqReg k f] } ∨
               k.presetCap = some s.l.length ∧ scanExamine k f s = endScan .presetFull t))) := by
  obtain ⟨h, hT, a, b, -⟩ := optimizedTune_cases k hk hz f s
  generalize q : optimizedTune k f s = r at *
  obtain ⟨r, t⟩ := r
  have hs : t.scanCode = s.scanCode := hT.scanCode_eq
  have hl : t.l = s.l := hT.l_eq
  refine ⟨t, h, hT, b, ?_⟩
  unfold scanExamine
  rw [q]
  cases r with
  | commError => exact .inl rfl
  | notReady => exact .inr ⟨a (by simp), .inl rfl⟩
  | ok =>
    refine .inr ⟨a (by simp), ?_⟩
    by_cases hc : accept k t.st.ifc t.st.adc s.scanCode
    · refine .inr ⟨hc, ?_⟩
      rw [← hs] at hc
      by_cases hp : k.presetCap = some s.l.length
      · exact .inr ⟨hp, by simp [if_pos hc, appendPreset, hl, hp]⟩
      · exact .inl ⟨hp, by simp [if_pos hc, appendPreset, hl, hp]⟩
    · rw [← hs] at hc
      exact .inl (by simp only [if_neg hc])

/-- A frame that SCAN_STEP takes for a station: a nonzero PLL word, and acceptable at the code (R183, R196, R202). -/
def Takes (k : Config) (m : Image) (c : StopCode) : Prop := rdPll k m ≠ 0#14 ∧ accept k (rdIfc k m) (rdAdc k m) c

/-- Which examined frequencies are appended (R196, R202, R226): exactly those whose last frame is taken for a station, while
the list has room. -/
theorem scanExamine_appends (k : Config) (hk : 0 < k.readAttempts) (hz : 0 < k.zeroAttempts) (f : Int) (s : State) :
    ∃ t h, Tunes k 3 s t h ∧
      (scanExamine k f s = endScan .commError t ∨
        ¬ Takes k t.rd s.scanCode ∧ scanExamine k f s = scanAdvance k t ∨
        Takes k t.rd s.scanCode ∧
          (k.presetCap ≠ some s.l.length ∧ scanExamine k f s = scanAdvance k { t with l := s.l ++ [freqReg k f] } ∨
           k.presetCap = some s.l.length ∧ scanExamine k f s = endScan .presetFull t)) := by
  obtain ⟨h, hT, -, -, hok⟩ := optimizedTune_cases k hk hz f s
  have hnr := optimizedTune_notReady k hk hz f s
  generalize q : optimizedTune k f s = r at *
  obtain ⟨r, t⟩ := r
  have hs : t.scanCode = s.scanCode := hT.scanCode_eq
  have hl : t.l = s.l := hT.l_eq
  refine ⟨t, h, hT, ?_⟩
  unfold scanExamine
  rw [q]
  cases r with
  | commError => exact .inl rfl
  | notReady => exact .inr (.inl ⟨fun a => a.1 (hnr rfl), rfl⟩)
  | ok =>
    obtain ⟨h1, -, old, -, h2⟩ := hok rfl
    dsimp only at h1 h2 ⊢
    have e : accept k t.st.ifc t.st.adc t.scanCode ↔ accept k (rdIfc k t.rd) (rdAdc k t.rd) s.scanCode := by
      rw [h2, hs]
      exact Iff.rfl
    by_cases hc : accept k (rdIfc k t.rd) (rdAdc k t.rd) s.scanCode
    · refine .inr (.inr ⟨⟨h1, hc⟩, ?_⟩)
      rw [if_pos (e.2 hc)]
      by_cases hp : k.presetCap = some s.l.length
      · exact .inr ⟨hp, by simp [appendPreset, hl, hp]⟩
      · exact .inl ⟨hp, by simp [appendPreset, hl, hp]⟩
    · exact .inr (.inl ⟨fun a => hc a.2, if_neg (mt e.1 hc)⟩)

end Sys2Proof.Machine
end

