-- ==== Sys2Proof/Machine/Assembler.lean ====
section
/-! DEFINITION. The assembly syntax of 30_encoding.md R86: one command per line, the mnemonic, then operands separated by
commas; and the pseudo-commands of R87 and R88 in the same form. Notation only: the block never sees text (log entry 16). -/

namespace Sys2Proof.Machine

/-- A line of assembly text: a command or a pseudo-command. -/
inductive AsmLine where
  | command (i : Instr)
  | pseudo (q : Pseudo)
  deriving DecidableEq, Repr

/-- Text without blanks at its start. -/
def skipBlanks (cs : List Char) : List Char := cs.dropWhile (· == ' ')

/-- Text without blanks at its ends. -/
def trimBlanks (cs : List Char) : List Char := (skipBlanks (skipBlanks cs).reverse).reverse

/-- The pieces of a text between occurrences of `sep`. -/
def splitAt (sep : Char) : List Char → List (List Char)
  | [] => [[]]
  | c :: cs =>
    if c == sep then [] :: splitAt sep cs
    else
      match splitAt sep cs with
      | [] => [[c]]
      | p :: ps => (c :: p) :: ps

/-- The value of a decimal digit. -/
def digitValue (c : Char) : Option Nat :=
  if '0'.toNat ≤ c.toNat ∧ c.toNat ≤ '9'.toNat then some (c.toNat - '0'.toNat) else none

/-- The value of a run of decimal digits read after `acc`. -/
def decimalFrom (acc : Nat) : List Char → Option Nat
  | [] => some acc
  | c :: cs => (digitValue c).bind fun d => decimalFrom (10 * acc + d) cs

/-- A decimal integer: at least one digit, nothing else. -/
def decimal (cs : List Char) : Option Nat := if cs.isEmpty then none else decimalFrom 0 cs

/-- A MHz literal without its suffix: "The MHz value times 10^6 must be an integer" (R86). -/
def megahertz (cs : List Char) : Option Nat :=
  match splitAt '.' cs with
  | [whole] => (decimal whole).map (· * 1000000)
  | [whole, frac] =>
    match decimal whole, decimal frac with
    | some a, some b =>
      if b * 1000000 % 10 ^ frac.length = 0 then some (a * 1000000 + b * 1000000 / 10 ^ frac.length) else none
    | _, _ => none
  | _ => none

/-- An F operand: a decimal Hz integer or a MHz literal, within the operand's FREQ_OPERAND_BITS (R7, R81, R86). -/
def asmFreq (cs : List Char) : Option Freq :=
  let hz :=
    match cs.reverse with
    | 'z' :: 'H' :: 'M' :: rest => megahertz rest.reverse
    | _ => decimal cs
  hz.bind fun n => if n < 2 ^ params.freqOperandBits then some (BitVec.ofNat 27 n) else none

/-- A B operand: `0` or `1`, or the two synonyms of the command (R86). -/
def asmBit (one zero : String) (cs : List Char) : Option Bool :=
  if String.ofList cs = "1" ∨ String.ofList cs = one then some true
  else if String.ofList cs = "0" ∨ String.ofList cs = zero then some false
  else none

/-- An L operand: a level name, or an integer 0 to 7 (R86). -/
def asmLevel (cs : List Char) : Option Level :=
  match String.ofList cs with
  | "NA" => some 0#3
  | "LOW" => some 1#3
  | "MID" => some 2#3
  | "HIGH" => some 3#3
  | _ => (decimal cs).bind fun n => if n < 8 then some (BitVec.ofNat 3 n) else none

/-- A direction of an S operand: `UP` or `DOWN` (R86). -/
def asmDir (cs : List Char) : Option Bool :=
  match String.ofList cs with
  | "UP" => some true
  | "DOWN" => some false
  | _ => none

/-- An S operand: `UP|DOWN, <level>` with an optional third operand `CAPTURE` (R86). -/
def asmSearch (c : Bool → Level → Bool → AsmLine) : List (List Char) → Option AsmLine
  | [d, v] => (asmDir d).bind fun up => (asmLevel v).map fun lvl => c up lvl false
  | [d, v, w] =>
    if String.ofList w = "CAPTURE" then (asmDir d).bind fun up => (asmLevel v).map fun lvl => c up lvl true else none
  | _ => none

/-- A command with one operand read by `p`. -/
def asmOne {α : Type} (p : List Char → Option α) (c : α → AsmLine) : List (List Char) → Option AsmLine
  | [a] => (p a).map c
  | _ => none

/-- A command with no operand. -/
def asmNone (a : AsmLine) : List (List Char) → Option AsmLine
  | [] => some a
  | _ => none

/-- A command with a bit operand that has no synonyms. -/
def asmPlainBit (c : Bool → Instr) : List (List Char) → Option AsmLine :=
  asmOne (asmBit "1" "0") fun v => .command (c v)

/-- The operands of COMMIT: a frequency and a side (R87). -/
def asmCommit : List (List Char) → Option AsmLine
  | [f, sd] =>
    (asmFreq f).bind fun hz =>
      (asmBit "HIGH" "LOW" sd).map fun v => .pseudo (.commit hz (if v then .high else .low))
  | _ => none

/-- A line from its mnemonic and its operands (R86 to R88). -/
def asmOperands (mnem : String) (ops : List (List Char)) : Option AsmLine :=
  match mnem with
  | "SET_FREQ" => asmOne asmFreq (fun f => .command (.setFreq f)) ops
  | "SET_MUTE" => asmPlainBit .setMute ops
  | "SET_SEARCH_MODE" => asmPlainBit .setSearchMode ops
  | "SET_SEARCH_DIR" => asmOne (asmBit "UP" "DOWN") (fun v => .command (.setSearchDir v)) ops
  | "SET_STOP_LEVEL" => asmOne asmLevel (fun v => .command (.setStopLevel v)) ops
  | "SET_INJECTION" => asmOne (asmBit "HIGH" "LOW") (fun v => .command (.setInjection v)) ops
  | "SET_MONO" => asmPlainBit .setMono ops
  | "SET_MUTE_RIGHT" => asmPlainBit .setMuteRight ops
  | "SET_MUTE_LEFT" => asmPlainBit .setMuteLeft ops
  | "SET_SWP1" => asmPlainBit .setSwp1 ops
  | "SET_SWP2" => asmPlainBit .setSwp2 ops
  | "SET_STANDBY" => asmPlainBit .setStandby ops
  | "SET_BAND" => asmPlainBit .setBand ops
  | "SET_SOFT_MUTE" => asmPlainBit .setSoftMute ops
  | "SET_HIGH_CUT" => asmPlainBit .setHighCut ops
  | "SET_NOISE_CANCEL" => asmPlainBit .setNoiseCancel ops
  | "SET_SEARCH_IND" => asmPlainBit .setSearchInd ops
  | "SET_DEEMPH" => asmPlainBit .setDeemph ops
  | "FLUSH" => asmNone (.command .flush) ops
  | "READ_RAW" => asmNone (.command .readRaw) ops
  | "READ_DECODE" => asmNone (.command .readDecode) ops
  | "OPTIMIZE" => asmOne asmFreq (fun f => .command (.optimize f)) ops
  | "SET_STATION" => asmOne asmFreq (fun f => .command (.setStation f)) ops
  | "SEARCH_STEP" => asmSearch (fun up lvl cap => .command (.searchStep up lvl cap)) ops
  | "SCAN_BEGIN" => asmOne asmLevel (fun v => .command (.scanBegin v)) ops
  | "SCAN_STEP" => asmNone (.command .scanStep) ops
  | "PRESET_NEXT" => asmNone (.command .presetNext) ops
  | "PRESET_PREV" => asmNone (.command .presetPrev) ops
  | "PRESET_DELETE" => asmNone (.command .presetDelete) ops
  | "UNMUTE" => asmNone (.pseudo .unmute) ops
  | "COMMIT" => asmCommit ops
  | "TUNE" => asmOne asmFreq (fun f => .pseudo (.tune f)) ops
  | "SEARCH" => asmSearch (fun up lvl cap => .pseudo (.search up lvl cap)) ops
  | "SCAN_BAND" => asmOne asmLevel (fun v => .pseudo (.scanBand v)) ops
  | _ => none

/-- The mnemonic of a line: its text up to the first blank. -/
def asmMnemonic (cs : List Char) : List Char := cs.takeWhile (· != ' ')

/-- The operands of a line: the text after the mnemonic, split at commas; no operand when nothing follows. -/
def asmFields (cs : List Char) : List (List Char) :=
  let rest := trimBlanks (cs.dropWhile (· != ' '))
  if rest.isEmpty then [] else (splitAt ',' rest).map trimBlanks

/-- One line of assembly text (R86); `none` when the line is no command. -/
def assemble (line : String) : Option AsmLine :=
  asmOperands (String.ofList (asmMnemonic (trimBlanks line.toList))) (asmFields (trimBlanks line.toList))

end Sys2Proof.Machine
end

