-- ==== Sys2Proof/Tests/Slice0.lean ====
section
/-! SUPPORT. Tests of the model against spec/95_test_vectors.md, one step each, and a witness for the hypotheses of every
obligation. Every expected value is the vector's or is calculated by hand from the rule named. -/

namespace Sys2Proof.Tests

open Sys2Proof Sys2Proof.Machine Sys2Proof.Claims

/-! ## Small states -/

/-- The state a command leaves; the state itself where it answers no next state. -/
def after (i : Instr) (s : State) : State :=
  match exec i s with
  | .next t => t
  | .fault _ => s
  | .refused _ => s

/-- The reset state with a write image. -/
def withW (b0 b1 b2 b3 b4 : Byte) : State := { State.reset with w := ⟨b0, b1, b2, b3, b4⟩ }

/-- The reset state with answers lined up. -/
def withAnswers (a : List ReadAnswer) : State := { State.reset with answers := a }

/-- The frame F of vectors V40 to V46: 101.1 MHz under HIGH, ifc 55, adc 12. -/
def frameF : Image := ⟨0xB0#8, 0x51#8, 0x37#8, 0xC0#8, 0x00#8⟩

/-- The zero frame Z of the same vectors. -/
def frameZ : Image := ⟨0x00#8, 0x00#8, 0x00#8, 0x00#8, 0x00#8⟩

/-- A frame of the stub oracle T away from a station, under HIGH: ifc 40, adc 2. -/
def frameHigh : Image := ⟨0xB0#8, 0x88#8, 0x28#8, 0x20#8, 0x00#8⟩

/-- A frame of the stub oracle T away from a station, under LOW: ifc 40, adc 4. -/
def frameLow : Image := ⟨0xAF#8, 0xE3#8, 0x28#8, 0x40#8, 0x00#8⟩

/-- Three presets, the cursor at the middle one, HIGH side in W (vectors V70, V71). -/
def abc : State := { withW 0x00#8 0x00#8 0x10#8 0x10#8 0x00#8 with l := [88100000#27, 99000000#27, 101100000#27], c := 1 }

/-- A scan that stands at an index, with a station under the answers lined up. -/
def scanAt (n : BitVec 16) : State :=
  { withAnswers [.bytes frameHigh, .bytes frameLow, .bytes frameF] with scanActive := true, scanIdx := n, scanCode := 3#2 }

/-- A scan at the last frequency of band 0, with a NOT_READY commit read lined up. -/
def lastScan : State :=
  { withAnswers (.bytes frameHigh :: .bytes frameLow :: List.replicate 5 (.bytes frameZ)) with
    scanActive := true, scanIdx := 205#16, scanCode := 0#2 }

/-! ## Encoding (V34, V35; 30_encoding.md R82 to R86) -/

theorem test_decode_set_freq : decodeCmd 0x0FFFFFFF#32 = .ok (.setFreq 134217727#27) := by decide
theorem test_decode_set_mute : decodeCmd 0x10000000#32 = .ok (.setMute false) := by decide
theorem test_decode_set_search_mode : decodeCmd 0x18000001#32 = .ok (.setSearchMode true) := by decide
theorem test_decode_set_search_dir : decodeCmd 0x20000001#32 = .ok (.setSearchDir true) := by decide
theorem test_decode_set_injection : decodeCmd 0x30000001#32 = .ok (.setInjection true) := by decide
theorem test_decode_set_mono : decodeCmd 0x38000001#32 = .ok (.setMono true) := by decide
theorem test_decode_set_mute_right : decodeCmd 0x40000001#32 = .ok (.setMuteRight true) := by decide
theorem test_decode_set_mute_left : decodeCmd 0x48000001#32 = .ok (.setMuteLeft true) := by decide
theorem test_decode_set_swp1 : decodeCmd 0x50000001#32 = .ok (.setSwp1 true) := by decide
theorem test_decode_set_swp2 : decodeCmd 0x58000001#32 = .ok (.setSwp2 true) := by decide
theorem test_decode_set_standby : decodeCmd 0x60000001#32 = .ok (.setStandby true) := by decide
theorem test_decode_set_band : decodeCmd 0x68000001#32 = .ok (.setBand true) := by decide
theorem test_decode_set_soft_mute : decodeCmd 0x70000001#32 = .ok (.setSoftMute true) := by decide
theorem test_decode_set_high_cut : decodeCmd 0x78000001#32 = .ok (.setHighCut true) := by decide
theorem test_decode_set_noise_cancel : decodeCmd 0x80000001#32 = .ok (.setNoiseCancel true) := by decide
theorem test_decode_set_search_ind : decodeCmd 0x88000001#32 = .ok (.setSearchInd true) := by decide
theorem test_decode_set_deemph : decodeCmd 0x90000001#32 = .ok (.setDeemph true) := by decide
theorem test_decode_set_stop_level : decodeCmd 0x28000007#32 = .ok (.setStopLevel 7#3) := by decide
theorem test_decode_bus_commands : decodeCmd 0x98000000#32 = .ok .flush ∧ decodeCmd 0xA0000000#32 = .ok .readRaw ∧
    decodeCmd 0xA8000000#32 = .ok .readDecode := by decide
theorem test_decode_optimize : decodeCmd 0xB5F5E100#32 = .ok (.optimize 100000000#27) := by decide
theorem test_decode_set_station : decodeCmd 0xBE06A9E0#32 = .ok (.setStation 101100000#27) := by decide
theorem test_decode_search_step : decodeCmd 0xC0000005#32 = .ok (.searchStep true 2#3 false) ∧
    decodeCmd 0xC000001F#32 = .ok (.searchStep true 7#3 true) := by decide
theorem test_decode_scan : decodeCmd 0xC8000003#32 = .ok (.scanBegin 3#3) ∧ decodeCmd 0xD0000000#32 = .ok .scanStep := by
  decide
theorem test_decode_presets : decodeCmd 0xD8000000#32 = .ok .presetNext ∧ decodeCmd 0xE0000000#32 = .ok .presetPrev ∧
    decodeCmd 0xE8000000#32 = .ok .presetDelete := by decide
theorem test_illegal_opcodes : decodeCmd 0x07FFFFFF#32 = .error (.illegalOpcode 0#5) ∧
    decodeCmd 0xF0000000#32 = .error (.illegalOpcode 0x1E#5) ∧
    decodeCmd 0xFFFFFFFF#32 = .error (.illegalOpcode 0x1F#5) := by decide
theorem test_must_be_zero : decodeCmd 0x10000002#32 = .error (.mustBeZero 0x02#5 .B) ∧
    decodeCmd 0x28000008#32 = .error (.mustBeZero 0x05#5 .L) ∧ decodeCmd 0x98000001#32 = .error (.mustBeZero 0x13#5 .N) ∧
    decodeCmd 0xC0000020#32 = .error (.mustBeZero 0x18#5 .S) := by decide
theorem test_encode_set_freq : encode (.setFreq 101100000#27) = 0x0E06A9E0#32 := by decide
theorem test_encode_search_step : encode (.searchStep true 2#3 true) = 0xC0000015#32 := by decide
theorem test_table_word : decodeTableWord 32 0xC8000003 = some (.scanBegin 3#3) := by decide
theorem test_table_word_illegal : decodeTableWord 32 0xE8000100 = none := by decide

/-! ## WellFormed: an ill-formed term for each check -/

theorem test_wf_word : Word.WellFormed 0xC0000015#32 = true := by decide
theorem test_wf_refuses_opcode : Word.WellFormed 0xF0000000#32 = false := by decide
theorem test_wf_refuses_must_be_zero : Word.WellFormed 0xC0000020#32 = false := by decide
theorem test_wf_params : params.WellFormed = true := by decide
theorem test_wf_refuses_bands : Config.WellFormed { band1MinHz := 92000000 } = false := by decide
theorem test_wf_refuses_steps : Config.WellFormed { searchStepHz := 0 } = false := by decide
theorem test_wf_refuses_pll_step : Config.WellFormed { pllStepHz := 8193 } = false := by decide
theorem test_wf_refuses_widths : Config.WellFormed { pllBits := 15 } = false ∧
    Config.WellFormed { imageBytes := 4 } = false ∧ Config.WellFormed { freqOperandBits := 26 } = false := by decide
theorem test_wf_refuses_attempts : Config.WellFormed { readAttempts := 0 } = false := by decide
theorem test_wf_refuses_settle : Config.WellFormed { settleMs := 27 } = false := by decide

/-! ## Assembly text (R86 to R88) -/

theorem test_asm_set_freq : assemble "SET_FREQ 101.1MHz" = some (.command (.setFreq 101100000#27)) := by decide
theorem test_asm_search_step :
    assemble "SEARCH_STEP UP, MID, CAPTURE" = some (.command (.searchStep true 2#3 true)) := by decide
theorem test_asm_commit : assemble "COMMIT 100000000, HIGH" = some (.pseudo (.commit 100000000#27 .high)) := by decide
theorem test_asm_refuses : assemble "SET_STOP_LEVEL 8" = none := by decide

/-! ## Codec (V20, V21, V22) -/

theorem test_pll_high : pllRaw params 101100000 .high = 12369 := by decide
theorem test_pll_low : pllRaw params 99000000 .low = 12057 := by decide
theorem test_pll_negative : pllRaw params 220903 .low = -1 := by decide
theorem test_pll_tie : pllRaw params 101097752 .high = 12369 ∧ pllRaw params 101097751 .high = 12368 := by decide
theorem test_tie_rules : roundDiv .halfEven (12368 * 8192 + 4096) 8192 = 12368 ∧
    roundDiv .halfEven (12369 * 8192 + 4096) 8192 = 12370 ∧ roundDiv .halfAway (-4096) 8192 = -1 ∧
    roundDiv .halfUp (-4096) 8192 = 0 := by decide
theorem test_freq_of : freqOf params 12369#14 .high = 101101848 ∧ freqOf params 12369#14 .low = 101551848 := by decide

/-! ## Setters (V30 to V33) -/

theorem test_set_freq : (after (.setFreq 101100000#27) (withW 0x00#8 0x00#8 0x10#8 0x10#8 0x00#8)).w =
    ⟨0x30#8, 0x51#8, 0x10#8, 0x10#8, 0x00#8⟩ := by decide
theorem test_set_freq_range : after (.setFreq 220903#27) State.reset = { State.reset with res := 11#4 } := by decide
theorem test_set_mute : (after (.setMute true) (withW 0x30#8 0#8 0#8 0x10#8 0#8)).w.b0 = 0xB0#8 := by decide
theorem test_set_mute_off : (after (.setMute false) (withW 0xB0#8 0#8 0#8 0x10#8 0#8)).w.b0 = 0x30#8 := by decide
theorem test_set_search_mode : (after (.setSearchMode true) (withW 0x30#8 0#8 0#8 0x10#8 0#8)).w.b0 = 0x70#8 := by decide
theorem test_set_search_dir : (after (.setSearchDir true) (withW 0#8 0#8 0x10#8 0x10#8 0#8)).w.b2 = 0x90#8 := by decide
theorem test_set_stop_level : (after (.setStopLevel 2#3) (withW 0#8 0#8 0x10#8 0x10#8 0#8)).w.b2 = 0x50#8 := by decide
theorem test_set_stop_level_5 : (after (.setStopLevel 5#3) (withW 0#8 0#8 0x10#8 0x10#8 0#8)).w.b2 = 0x70#8 := by decide
theorem test_set_injection : (after (.setInjection true) (withW 0x2F#8 0x94#8 0#8 0x10#8 0#8)).w =
    ⟨0x2F#8, 0x94#8, 0x10#8, 0x10#8, 0#8⟩ := by decide
theorem test_set_mono : (after (.setMono true) (withW 0#8 0#8 0x10#8 0x10#8 0#8)).w.b2 = 0x18#8 := by decide
theorem test_set_mute_right : (after (.setMuteRight true) (withW 0#8 0#8 0x10#8 0x10#8 0#8)).w.b2 = 0x14#8 := by decide
theorem test_set_mute_left : (after (.setMuteLeft true) (withW 0#8 0#8 0x10#8 0x10#8 0#8)).w.b2 = 0x12#8 := by decide
theorem test_set_swp1 : (after (.setSwp1 true) (withW 0#8 0#8 0x10#8 0x10#8 0#8)).w.b2 = 0x11#8 := by decide
theorem test_set_swp2 : (after (.setSwp2 true) State.reset).w.b3 = 0x90#8 := by decide
theorem test_set_standby : (after (.setStandby true) State.reset).w.b3 = 0x50#8 := by decide
theorem test_set_band : (after (.setBand true) State.reset).w.b3 = 0x30#8 ∧
    bounds params (after (.setBand true) State.reset).w = (76000000, 91000000) := by decide
theorem test_set_soft_mute : (after (.setSoftMute true) State.reset).w.b3 = 0x18#8 := by decide
theorem test_set_high_cut : (after (.setHighCut true) State.reset).w.b3 = 0x14#8 := by decide
theorem test_set_noise_cancel : (after (.setNoiseCancel true) State.reset).w.b3 = 0x12#8 := by decide
theorem test_set_search_ind : (after (.setSearchInd true) State.reset).w.b3 = 0x11#8 := by decide
theorem test_set_deemph : (after (.setDeemph true) State.reset).w.b4 = 0x40#8 := by decide

/-! ## Bus and status (V36 to V46) -/

theorem test_flush : (after .flush (withW 0x30#8 0x51#8 0x10#8 0x10#8 0x00#8)).events =
    [.write 0x60#7 ⟨0x30#8, 0x51#8, 0x10#8, 0x10#8, 0x00#8⟩, .settle 35] := by decide
theorem test_read_raw : (after .readRaw (withAnswers [.bytes frameF])).rd = frameF ∧
    (after .readRaw (withAnswers [.bytes frameF])).st = Status.reset := by decide
theorem test_read_raw_timeout : (after .readRaw (withAnswers [.timeout])).res = 1#4 ∧
    (after .readRaw (withAnswers [.timeout])).st.readTimeout = true := by decide
theorem test_read_decode : (after .readDecode (withAnswers [.timeout, .timeout, .timeout, .timeout, .bytes frameF])).st =
    ⟨true, true, false, false, 55#7, 12#4, false, 101551848#32⟩ := by decide
theorem test_read_decode_comm_error :
    (after .readDecode (withAnswers (List.replicate 4 .timeout ++ .bytes frameZ :: List.replicate 5 .timeout))).res = 3#4 ∧
    reads (after .readDecode (withAnswers (List.replicate 4 .timeout ++ .bytes frameZ :: List.replicate 5 .timeout))).events
      = 10 := by decide
theorem test_narrow_fields : (decodedStatus { pllBits := 13, ifcBits := 6, adcBits := 3 } .low
    ⟨0x60#8, 0x01#8, 0x7F#8, 0xBF#8, 0xFF#8⟩ Status.reset) =
    ⟨true, false, true, false, 63#7, 5#4, false, 233192#32⟩ := by decide
theorem test_decode_flags : (decodedStatus params .low ⟨0x40#8, 0x01#8, 0x7F#8, 0x0F#8, 0xFF#8⟩ Status.reset) =
    ⟨true, false, true, false, 127#7, 0#4, false, 233192#32⟩ := by decide

/-! ## Optimizer (V50 to V55) -/

theorem test_choose : choose 2#4 4#4 = .high ∧ choose 15#4 15#4 = .low ∧ choose 4#4 2#4 = .low := by decide
theorem test_optimize : (after (.optimize 100000000#27) (withAnswers [.bytes ⟨0xB0#8, 0x01#8, 0x37#8, 0x90#8, 0x00#8⟩,
    .bytes ⟨0xAF#8, 0x5D#8, 0x37#8, 0x40#8, 0x00#8⟩])).w = ⟨0x2F#8, 0x5D#8, 0x00#8, 0x10#8, 0x00#8⟩ := by decide
theorem test_optimize_range : after (.optimize 133538632#27) State.reset = { State.reset with res := 11#4 } := by decide

/-! ## Stations, search and scan (V60 to V66, P2, P4) -/

theorem test_accept : accept params 52#7 7#4 2#2 ∧ ¬ accept params 59#7 15#4 2#2 ∧ ¬ accept params 55#7 9#4 3#2 := by
  decide
theorem test_set_station :
    (after (.setStation 101100000#27) (withAnswers [.bytes frameHigh, .bytes frameLow, .bytes frameF])).w =
      ⟨0x30#8, 0x51#8, 0x10#8, 0x10#8, 0x00#8⟩ ∧
    (after (.setStation 101100000#27) (withAnswers [.bytes frameHigh, .bytes frameLow, .bytes frameF])).st.freq =
      101101848#32 := by decide
theorem test_set_station_range : (after (.setStation 0#27) (withW 0xC0#8 0#8 0#8 0x10#8 0#8)).w.b0 = 0xC0#8 := by decide
theorem test_search_step_wraps : (after (.searchStep false 1#3 false) State.reset).p = 108000000#27 ∧
    (after (.searchStep false 1#3 false) State.reset).w.b2 = 0x20#8 := by decide
theorem test_search_step_comm_error :
    (after (.searchStep true 2#3 false) (withAnswers (List.replicate 5 .timeout))).p = 87600000#27 ∧
    (after (.searchStep true 2#3 false) (withAnswers (List.replicate 5 .timeout))).w.b2 = 0xD0#8 := by decide
theorem test_scan_begin : (after (.scanBegin 3#3) abc).w.b2 = 0xF0#8 ∧ (after (.scanBegin 3#3) abc).l = [] := by decide
theorem test_scan_step : (after .scanStep { withAnswers [.bytes frameHigh, .bytes frameLow, .bytes frameF] with
    scanActive := true, scanIdx := 136#16, scanCode := 3#2 }).l = [101100000#27] := by decide
theorem test_scan_step_idle : after .scanStep State.reset = { State.reset with res := 9#4 } := by decide

/-! ## Presets (V70 to V75) -/

theorem test_preset_next : (after .presetNext abc).c = 2 ∧
    (after .presetNext abc).w = ⟨0x30#8, 0x51#8, 0x10#8, 0x10#8, 0x00#8⟩ := by decide
theorem test_preset_next_wraps : (after .presetNext { abc with c := 2 }).c = 0 := by decide
theorem test_preset_prev : (after .presetPrev { abc with c := 0 }).c = 2 := by decide
theorem test_preset_prev_empty : (after .presetPrev State.reset).res = 10#4 := by decide
theorem test_preset_delete_last :
    (after .presetDelete { abc with c := 2, answers := List.replicate 5 .timeout }).l = [88100000#27, 99000000#27] ∧
    (after .presetDelete { abc with c := 2, answers := List.replicate 5 .timeout }).c = 1 := by decide
theorem test_preset_delete_only : (after .presetDelete { abc with l := [88100000#27], c := 0 }).res = 0#4 ∧
    (after .presetDelete { abc with l := [88100000#27], c := 0 }).events = [] := by decide

/-! ## The step -/

theorem test_step_illegal : step { abc with port := [0xD8000001#32] } = .next { abc with port := [], res := 12#4 } := by
  rfl
theorem test_step_fetch_word :
    step (State.reset.withFetchWord 32 0x10000001) = .next { State.reset with w := ⟨0x80#8, 0#8, 0#8, 0x10#8, 0#8⟩ } := by
  rfl
theorem test_reset_meets_inv : State.reset.l.all (fun f => inSomeBand params f.toNat) = true ∧
    inSomeBand params State.reset.p.toNat = true ∧ imageConst State.reset.w = true := by decide

/-! ## Witnesses: for every obligation with hypotheses, a state and operands that meet them, one for each clause -/

theorem witness_EncodeInvertsDecode : decodeCmd 0x28000007#32 = .ok (.setStopLevel 7#3) := by decide
theorem witness_LegalWordsSelectOneOpcodeRow : decodeCmd 0xC000001F#32 = .ok (.searchStep true 7#3 true) ∧
    ⟨"SEARCH_STEP", .S, 0xC0000000#32, 0xFFFFFFE0#32⟩ ∈ opRows ∧
    (0xC000001F#32 : Word) &&& 0xFFFFFFE0#32 = 0xC0000000#32 := by decide
theorem witness_IllegalWordsChangeOnlyRes_opcode :
    (0x07FFFFFF#32 : Word).extractLsb' 27 5 = 0x00#5 ∧ (0xF0000000#32 : Word).extractLsb' 27 5 = 0x1E#5 ∧
    (0xFFFFFFFF#32 : Word).extractLsb' 27 5 = 0x1F#5 := by decide
theorem witness_IllegalWordsChangeOnlyRes_zero :
    ({ abc with port := [0xE8000100#32] } : State).port = 0xE8000100#32 :: [] ∧
    ∃ r ∈ opRows, (0xE8000100#32 : Word).extractLsb' 27 5 = r.matchWord.extractLsb' 27 5 ∧
      0xE8000100#32 &&& r.maskWord ≠ r.matchWord := by decide
theorem witness_StepRunsTheDecodedCommand :
    ({ abc with port := [0xD8000000#32, 0xF0000000#32] } : State).port = 0xD8000000#32 :: [0xF0000000#32] ∧
    decodeCmd 0xD8000000#32 = .ok .presetNext ∧ State.reset.port = [] := by decide
theorem witness_RangeFaultChangesOnlyRes_setFreq :
    outOfRange (.setFreq 220903#27) State.reset ∧ ¬ outOfRange (.setFreq 220904#27) State.reset ∧
    outOfRange (.setFreq 133988632#27) abc ∧ ¬ outOfRange (.setFreq 133988631#27) abc := by
  unfold outOfRange fits; decide
theorem witness_RangeFaultChangesOnlyRes_tunable :
    outOfRange (.optimize 670903#27) State.reset ∧ ¬ outOfRange (.optimize 670904#27) State.reset ∧
    outOfRange (.setStation 133538632#27) State.reset ∧ ¬ outOfRange (.setStation 133538631#27) State.reset := by
  unfold outOfRange inTunableRange; decide
theorem witness_RangeFaultChangesOnlyRes_presets :
    outOfRange .presetNext { State.reset with l := [0#27] } ∧ outOfRange .presetPrev { State.reset with l := [0#27] } ∧
    outOfRange .presetDelete { State.reset with l := [0#27, 0#27] } := by
  unfold outOfRange fits inTunableRange; decide
theorem witness_RangeFaultChangesOnlyRes_next :
    exec (.setFreq 220903#27) State.reset = .next { State.reset with res := 11#4 } := by rfl
theorem witness_StrictStepFaultsOnUndefinedSituations_illegal : ∀ i, decodeCmd 0xF0000000#32 ≠ .ok i := by
  intro i h
  have e : decodeCmd 0xF0000000#32 = .error (.illegalOpcode 0x1E#5) := by decide
  rw [e] at h
  cases h
theorem witness_StrictStepFaultsOnUndefinedSituations_decoded :
    decodeCmd 0x08035EE7#32 = .ok (.setFreq 220903#27) ∧ outOfRange (.setFreq 220903#27) State.reset ∧
    ¬ outOfRange (.setFreq 220903#27) abc := by
  unfold outOfRange fits; decide
theorem witness_PllRangeEdges : (133988632#27 : Freq).toNat = 133988632 ∧ (220903#27 : Freq).toNat = 220903 ∧
    injection abc.w = true ∧ injection State.reset.w = false := by decide
theorem witness_PllRoundTripBound : pllOK params 101097752 .high ∧ pllOK params 220904 .low ∧
    pllOK params 133988631 .high := by decide
theorem witness_TunableIsOneInterval : tunable params 670904 ∧ tunable params 133538631 ∧ ¬ tunable params 670903 ∧
    ¬ tunable params 133538632 := by decide
theorem witness_ImageBytesAreTheirFields : imageConst ⟨0xFF#8, 0xFF#8, 0xFF#8, 0xFF#8, 0x40#8⟩ = true := by decide
theorem witness_SetFreqWritesThePllWord : fits (133988631#27 : Freq).toNat (injection abc.w) ∧
    ¬ fits (133988632#27 : Freq).toNat (injection abc.w) ∧ fits (220904#27 : Freq).toNat (injection State.reset.w) := by
  unfold fits; decide
theorem witness_BitSettersOfBytesZeroAndTwo : bitTarget (.setSwp1 true) = some (2, 0, true) := by rfl
theorem witness_BitSettersOfBytesThreeAndFour : bitTarget (.setDeemph true) = some (4, 6, true) := by rfl
theorem witness_InjectionDoesNotReencode :
    exec (.setFreq 100000000#27) State.reset = .next (withW 0x2F#8 0x94#8 0x00#8 0x10#8 0x00#8) ∧
    exec (.setInjection true) (withW 0x2F#8 0x94#8 0x00#8 0x10#8 0x00#8) =
      .next (withW 0x2F#8 0x94#8 0x10#8 0x10#8 0x00#8) := by
  exact ⟨rfl, rfl⟩
theorem witness_ReadRawTakesAFrameOrTimesOut : nextAnswer (withAnswers [.bytes frameF]) = .bytes frameF ∧
    nextAnswer (withAnswers [.timeout]) = .timeout := by decide
theorem witness_ReadDecodeDecodesTheFrame_answers : ¬ settled frameZ ∧ settled frameF ∧
    (withAnswers (List.replicate 4 (.bytes frameZ) ++ List.replicate 4 .timeout ++ .bytes frameF :: [])).answers =
      List.replicate 4 (.bytes frameZ) ++ List.replicate 4 .timeout ++ .bytes frameF :: [] ∧
    (withAnswers [.bytes frameF]).answers =
      List.replicate 0 (.bytes frameZ) ++ List.replicate 0 .timeout ++ .bytes frameF :: [] := by
  unfold settled; decide
theorem witness_ReadDecodeDecodesTheFrame_ok :
    exec .readDecode (withAnswers [.bytes frameF]) = .next (after .readDecode (withAnswers [.bytes frameF])) ∧
    (after .readDecode (withAnswers [.bytes frameF])).res = 0#4 := by
  exact ⟨rfl, by decide⟩
theorem witness_CommErrorKeepsTheStaleStatus :
    exec .readDecode (withAnswers (List.replicate 5 .timeout)) =
      .next (after .readDecode (withAnswers (List.replicate 5 .timeout))) ∧
    (after .readDecode (withAnswers (List.replicate 5 .timeout))).res = 3#4 := by
  exact ⟨rfl, by decide⟩
theorem witness_NotReadyKeepsTheStaleStatus :
    exec .readDecode (withAnswers (List.replicate 5 (.bytes frameZ))) =
      .next (after .readDecode (withAnswers (List.replicate 5 (.bytes frameZ)))) ∧
    (after .readDecode (withAnswers (List.replicate 5 (.bytes frameZ)))).res = 2#4 := by
  exact ⟨rfl, by decide⟩
theorem witness_WrongSideDecodesFourHundredFiftyKilohertzOff :
    ({ abc with answers := [.bytes frameF] } : State).answers = .bytes frameF :: [] ∧ settled frameF ∧
    injection abc.w = true ∧ injection State.reset.w = false ∧
    exec .readDecode { abc with answers := [.bytes frameF] } =
      .next (after .readDecode { abc with answers := [.bytes frameF] }) ∧
    exec .readDecode { abc with answers := [.bytes frameF], w := State.reset.w } =
      .next (after .readDecode { abc with answers := [.bytes frameF], w := State.reset.w }) := by
  unfold settled
  exact ⟨rfl, by decide, by decide, by decide, rfl, rfl⟩
theorem witness_OptimizeChoosesTheWeakerProbe : inTunableRange (670904#27 : Freq).toNat ∧
    inTunableRange (133538631#27 : Freq).toNat ∧
    (withAnswers [.bytes frameHigh, .bytes frameLow]).answers = .bytes frameHigh :: .bytes frameLow :: [] ∧
    settled frameHigh ∧ settled frameLow := by
  unfold inTunableRange settled; decide
theorem witness_OptimizeFrame : inTunableRange (670904#27 : Freq).toNat := by unfold inTunableRange; decide
theorem witness_OptimizeStopsAtTheFirstCommError : inTunableRange (100000000#27 : Freq).toNat ∧
    (withAnswers (List.replicate 5 .timeout ++ [.bytes frameF])).answers = List.replicate 5 .timeout ++ [.bytes frameF] := by
  unfold inTunableRange; decide
theorem witness_NotReadyProbeUsesTheStaleLevel : inTunableRange (100000000#27 : Freq).toNat ∧ settled frameLow ∧
    ¬ settled frameZ ∧ ¬ settled ⟨0xC0#8, 0x00#8, 0x37#8, 0xF0#8, 0x00#8⟩ ∧
    (withAnswers (List.replicate 5 (.bytes frameZ) ++ .bytes frameLow :: [])).answers =
      List.replicate 5 (.bytes frameZ) ++ .bytes frameLow :: [] ∧
    (withAnswers (.bytes frameLow :: (List.replicate 5 (.bytes frameZ) ++ []))).answers =
      .bytes frameLow :: (List.replicate 5 (.bytes frameZ) ++ []) ∧
    (withAnswers (List.replicate 5 (.bytes frameZ) ++ (List.replicate 5 (.bytes frameZ) ++ []))).answers =
      List.replicate 5 (.bytes frameZ) ++ (List.replicate 5 (.bytes frameZ) ++ []) := by
  unfold inTunableRange settled; decide
theorem witness_SetStationTunesUnderTheChosenSide : inTunableRange (101100000#27 : Freq).toNat ∧
    (withAnswers [.bytes frameHigh, .bytes frameLow, .bytes frameF]).answers =
      .bytes frameHigh :: .bytes frameLow :: .bytes frameF :: [] ∧
    settled frameHigh ∧ settled frameLow ∧ settled frameF := by
  unfold inTunableRange settled; decide
theorem witness_SetStationFrame : inTunableRange (133538631#27 : Freq).toNat := by unfold inTunableRange; decide
theorem witness_SearchStepWrapsAtTheBandEdge : wraps true { State.reset with p := 108000000#27 } ∧
    wraps false State.reset ∧ wraps false { State.reset with w := ⟨0#8, 0#8, 0#8, 0x30#8, 0#8⟩, p := 100000000#27 } := by
  unfold wraps; decide
theorem witness_SearchStepProbesInBand : ¬ wraps true { State.reset with p := 107900000#27 } ∧
    ¬ wraps false { State.reset with p := 87600000#27 } ∧ ¬ wraps true State.reset := by
  unfold wraps; decide
theorem witness_SearchStepLeavesAnUnacceptedStationPending :
    ¬ wraps true (withAnswers [.bytes frameHigh, .bytes frameLow, .bytes frameHigh]) ∧
    (withAnswers [.bytes frameHigh, .bytes frameLow, .bytes frameHigh]).answers =
      .bytes frameHigh :: .bytes frameLow :: .bytes frameHigh :: [] ∧
    settled frameHigh ∧ settled frameLow ∧ ¬ acceptable frameHigh (codeOf 2#3) := by
  unfold wraps settled acceptable; decide
theorem witness_SearchStepCompletesOnAnAcceptedStation :
    ¬ wraps true (withAnswers [.bytes frameHigh, .bytes frameLow, .bytes frameF, .bytes frameHigh, .bytes frameLow,
      .bytes frameF]) ∧
    (withAnswers [.bytes frameHigh, .bytes frameLow, .bytes frameF, .bytes frameHigh, .bytes frameLow,
      .bytes frameF]).answers = .bytes frameHigh :: .bytes frameLow :: .bytes frameF :: .bytes frameHigh ::
        .bytes frameLow :: .bytes frameF :: [] ∧
    settled frameHigh ∧ settled frameLow ∧ settled frameF ∧ acceptable frameF (codeOf 7#3) := by
  unfold wraps settled acceptable; decide
theorem witness_NotReadyNeverAccepts : settled frameHigh ∧ settled frameLow ∧ ¬ settled frameZ ∧
    lastScan.answers = .bytes frameHigh :: .bytes frameLow :: (List.replicate 5 (.bytes frameZ) ++ []) ∧
    ¬ wraps true lastScan ∧ lastScan.scanActive = true ∧ scanHz lastScan ≤ maxHz (band lastScan.w) := by
  unfold wraps settled; decide
theorem witness_ScanStepWithoutAFrequency : State.reset.scanActive = false ∧
    ({ State.reset with scanActive := true, scanIdx := 206#16 } : State).scanActive = true ∧
    scanHz { State.reset with scanActive := true, scanIdx := 206#16 } > maxHz (band State.reset.w) := by
  decide
theorem witness_ScanStepExaminesOneFrequency_more :
    (scanAt 204#16).scanActive = true ∧ scanHz (scanAt 204#16) + 100000 ≤ maxHz (band (scanAt 204#16).w) ∧
    (scanAt 204#16).answers = .bytes frameHigh :: .bytes frameLow :: .bytes frameF :: [] ∧
    settled frameHigh ∧ settled frameLow ∧ settled frameF ∧ acceptable frameF (scanAt 204#16).scanCode.toNat := by
  unfold settled acceptable; decide
theorem witness_ScanStepExaminesOneFrequency_done :
    scanHz (scanAt 205#16) ≤ maxHz (band (scanAt 205#16).w) ∧
    scanHz (scanAt 205#16) + 100000 > maxHz (band (scanAt 205#16).w) ∧
    ¬ acceptable frameHigh (scanAt 205#16).scanCode.toNat := by
  unfold acceptable; decide
theorem witness_ScanStepFrame : ({ State.reset with scanActive := true } : State).scanActive = true ∧
    scanHz { State.reset with scanActive := true } ≤ maxHz (band State.reset.w) := by decide
theorem witness_ScanBandExaminesTheWholeBand : 0 < 206 ∧ 206 ≤ (if band State.reset.w then 151 else 206) ∧
    151 ≤ (if band (withW 0#8 0#8 0#8 0x30#8 0#8).w then 151 else 206) := by decide
theorem witness_SearchLoopEnds : minHz (band State.reset.w) ≤ State.reset.p.toNat ∧
    (State.reset.p.toNat : Int) ≤ maxHz (band State.reset.w) := by decide
theorem witness_SearchKeepsProbeInBandForEveryConfig : params.WellFormed = true ∧
    Config.WellFormed { band1MinHz := 76100000, band1MaxHz := 76100000 } = true := by decide
theorem witness_PresetNextMovesTheCursorForward : State.reset.l = [] ∧ abc.l ≠ [] ∧
    fits (entry abc.l ((abc.c + 1) % abc.l.length)) (injection abc.w) ∧
    ¬ fits (entry [0#27] ((State.reset.c + 1) % 1)) (injection State.reset.w) := by
  unfold fits; decide
theorem witness_PresetPrevMovesTheCursorBack : State.reset.l = [] ∧ abc.l ≠ [] ∧
    fits (entry abc.l ((abc.c + abc.l.length - 1) % abc.l.length)) (injection abc.w) ∧
    ¬ fits (entry [0#27] ((State.reset.c + 1 - 1) % 1)) (injection State.reset.w) := by
  unfold fits; decide
theorem witness_PresetDeleteRemovesAndRetunes : cursorOk State.reset = true ∧
    cursorOk { abc with l := [88100000#27], c := 0 } = true ∧ cursorOk { abc with c := 2 } = true ∧
    inTunableRange (entry (afterDelete { abc with c := 2 }).1 (afterDelete { abc with c := 2 }).2) ∧
    cursorOk { abc with l := [0#27, 0#27], c := 1 } = true ∧
    ¬ inTunableRange (entry (afterDelete { abc with l := [0#27, 0#27], c := 1 }).1
      (afterDelete { abc with l := [0#27, 0#27], c := 1 }).2) := by
  unfold inTunableRange; decide
theorem witness_FullPresetListEndsTheScan :
    (scanAt 136#16).scanActive = true ∧ scanHz (scanAt 136#16) ≤ maxHz (band (scanAt 136#16).w) ∧
    (scanAt 136#16).answers = .bytes frameHigh :: .bytes frameLow :: .bytes frameF :: [] ∧
    settled frameHigh ∧ settled frameLow ∧ settled frameF ∧ acceptable frameF (scanAt 136#16).scanCode.toNat ∧
    (scanAt 136#16).l.length = 0 ∧ (scanAt 136#16).l.length < 1 := by
  unfold settled acceptable; decide
theorem witness_EveryCommandKeepsTheCursorValid : abc.l ≠ [] ∧ abc.c < abc.l.length ∧ State.reset.l = [] ∧
    State.reset.c = 0 ∧ exec .presetNext abc = .next (after .presetNext abc) := by
  exact ⟨by decide, by decide, rfl, rfl, rfl⟩
theorem witness_OnlySearchStepWritesTheProbe :
    exec (.searchStep false 1#3 false) State.reset = .next (after (.searchStep false 1#3 false) State.reset) ∧
    (after (.searchStep false 1#3 false) State.reset).p ≠ State.reset.p := by
  exact ⟨rfl, by decide⟩
theorem witness_OnlyScanCommandsWriteTheScanRegisters :
    exec (.scanBegin 3#3) State.reset = .next (after (.scanBegin 3#3) State.reset) ∧
    (after (.scanBegin 3#3) State.reset).scanActive ≠ State.reset.scanActive := by
  exact ⟨rfl, by decide⟩
theorem witness_WritersOfThePresetList :
    exec (.scanBegin 0#3) abc = .next (after (.scanBegin 0#3) abc) ∧ (after (.scanBegin 0#3) abc).l ≠ abc.l ∧
    exec .scanStep (scanAt 136#16) = .next (after .scanStep (scanAt 136#16)) ∧
    (after .scanStep (scanAt 136#16)).scanIdx ≠ (scanAt 136#16).scanIdx ∧
    exec .presetDelete abc = .next (after .presetDelete abc) := by
  exact ⟨rfl, by decide, rfl, by decide, rfl⟩
theorem witness_FullPresetListEndsTheSearchStep :
    ¬ wraps true (withAnswers [.bytes frameHigh, .bytes frameLow, .bytes frameF, .bytes frameHigh, .bytes frameLow,
      .bytes frameF]) ∧
    (withAnswers [.bytes frameHigh, .bytes frameLow, .bytes frameF, .bytes frameHigh, .bytes frameLow,
      .bytes frameF]).answers = .bytes frameHigh :: .bytes frameLow :: .bytes frameF :: .bytes frameHigh ::
        .bytes frameLow :: .bytes frameF :: [] ∧
    settled frameHigh ∧ settled frameLow ∧ settled frameF ∧ acceptable frameF (codeOf 7#3) ∧
    State.reset.l.length = 0 ∧ State.reset.l.length < 1 := by
  unfold wraps settled acceptable; decide
theorem witness_OnlyOptimizeWritesTheResultSide :
    exec (.optimize 100000000#27) (withAnswers [.bytes frameHigh, .bytes frameLow]) =
      .next (after (.optimize 100000000#27) (withAnswers [.bytes frameHigh, .bytes frameLow])) ∧
    (after (.optimize 100000000#27) (withAnswers [.bytes frameHigh, .bytes frameLow])).resSide ≠ State.reset.resSide := by
  exact ⟨rfl, by decide⟩
theorem witness_NoCommandWritesTheConstantBits :
    exec (.setDeemph true) abc = .next (after (.setDeemph true) abc) := by rfl
theorem witness_BusEventsPerCommand : exec .flush abc = .next (after .flush abc) ∧ (after .flush abc).res ≠ 3#4 := by
  exact ⟨rfl, by decide⟩
theorem witness_EveryStepKeepsTheBusDiscipline : imageConst abc.w = true ∧
    historyOk params [.write 0x60#7 abc.w, .settle 35, .read 0x60#7 5 .timeout] = true ∧
    historyImages [.write 0x60#7 abc.w, .settle 35, .read 0x60#7 5 .timeout] = true := by decide
theorem witness_EveryStepKeepsTheInvariant_reset : Inv { State.reset with port := [0x98000000#32] } :=
  ⟨by decide, by decide, by decide, by decide, by decide, by decide, by decide⟩
theorem witness_EveryStepKeepsTheInvariant_scan :
    Inv { abc with scanActive := true, scanIdx := 205#16, p := 108000000#27, c := 2 } :=
  ⟨by decide, by decide, by decide, by decide, by decide, by decide, by decide⟩

end Sys2Proof.Tests
end

/-! SUPPORT. What every command can do to the registers of the block (10_state.md R20, R37 to R41), said once: a command
writes the registers that `Writes` names, then drives the bus (`Drives`), then ends with a result code. The whole-machine
rules and the invariant of R45 are read off this. -/

namespace Sys2Proof.Machine

open Sys2Proof.Claims

/-! ## Frequencies of a band -/

/-- A frequency within the bounds of the current band lies in some band. -/
theorem inSomeBand_of_bounds {k : Config} {w : Image} {f : Int} (lo : (bounds k w).1 ≤ f) (hi : f ≤ (bounds k w).2) :
    inSomeBand k f = true :=
  List.any_eq_true.mpr ⟨band w, by cases band w <;> decide, by simpa [bounds] using And.intro lo hi⟩

/-- The registers hold every frequency of the current band (R35, R37, R39). -/
theorem freqReg_of_bounds {w : Image} {f : Int} (lo : (bounds params w).1 ≤ f) (hi : f ≤ (bounds params w).2) :
    ((freqReg params f).toNat : Int) = f := by
  rw [bounds_params] at lo hi
  have width : 2 ^ params.freqOperandBits = 134217728 := rfl
  refine freqReg_toNat params (by decide) f ?_ ?_
  · split at lo <;> omega
  · rw [width]
    split at hi <;> omega

/-- The lower bound of a band is not above its upper bound (R35). -/
theorem bounds_params_le (w : Image) : (bounds params w).1 ≤ (bounds params w).2 := by
  rw [bounds_params]
  split <;> decide

/-- A register written with a frequency of the current band holds one that lies in some band. -/
theorem inSomeBand_freqReg {w : Image} {f : Int} (lo : (bounds params w).1 ≤ f) (hi : f ≤ (bounds params w).2) :
    inSomeBand params (freqReg params f).toNat = true := by
  rw [freqReg_of_bounds lo hi]
  exact inSomeBand_of_bounds lo hi

theorem scanFreq_params (s : State) : scanFreq params s = scanHz s := by
  rw [scanFreq, scanHz, bounds_params, minHz]
  split <;> rfl

/-- A frame is taken for a station exactly when it is settled and acceptable, by the numbers of R147, R183 and R184. -/
theorem takes_params_iff (m : Image) (c : StopCode) : Takes params m c ↔ settled m ∧ acceptable m c.toNat := by
  have thr : threshold params c = thresholdOf c.toNat := by revert c; decide
  simp only [Takes, settled, acceptable, accept, rdIfc_toNat, rdAdc_toNat, rdPll_params, thr, countOf, levelOf]
  rfl

/-! ## The constants of the write image -/

/-- A write of a bit of byte 3 other than XTAL keeps the constants (R22). -/
theorem imageConst_putBit_b3 (w : Image) (bit : Nat) (v : Bool) (h : bit ≠ 4) :
    imageConst { w with b3 := putBit w.b3 bit v } = imageConst w := by
  simp [imageConst, xtal, pllRef, h.symm]

/-- SET_DEEMPH writes none of the constants of byte 4 (R22, R124). -/
theorem imageConst_putDeemph (w : Image) (v : Bool) : imageConst (putDeemph w v) = imageConst w := by
  have low : getField (putBit w.b4 6 v) 0 6 = getField w.b4 0 6 :=
    extract_putField_apart _ _ _ _ _ (by omega) (by omega)
  simp [imageConst, putDeemph, xtal, pllRef, low]

/-! ## Driving the bus -/

/-- What the bus commands and the setters leave alone: P, the scan registers, L, C and resSide, the constants of the write
image, and the rule that a status is decoded only from a read frame (R45 clause 4). -/
structure Drives (s u : State) : Prop where
  p : u.p = s.p
  scanActive : u.scanActive = s.scanActive
  scanIdx : u.scanIdx = s.scanIdx
  scanCode : u.scanCode = s.scanCode
  l : u.l = s.l
  c : u.c = s.c
  resSide : u.resSide = s.resSide
  const : imageConst u.w = imageConst s.w
  unread : (s.rdValid = false → s.st.valid = false) → u.rdValid = false → u.st.valid = false

theorem Drives.refl (s : State) : Drives s s := ⟨rfl, rfl, rfl, rfl, rfl, rfl, rfl, rfl, id⟩

/-- Writing an image that holds the same constants is all a setter does. -/
theorem Drives.ofImage {s : State} {w : Image} (h : imageConst w = imageConst s.w) : Drives s { s with w := w } :=
  ⟨rfl, rfl, rfl, rfl, rfl, rfl, rfl, h, id⟩

theorem Drives.flush (k : Config) (s : State) : Drives s (flush k s) := ⟨rfl, rfl, rfl, rfl, rfl, rfl, rfl, rfl, id⟩

theorem Drives.trans {s t u : State} (a : Drives s t) (b : Drives t u) : Drives s u where
  p := b.p.trans a.p
  scanActive := b.scanActive.trans a.scanActive
  scanIdx := b.scanIdx.trans a.scanIdx
  scanCode := b.scanCode.trans a.scanCode
  l := b.l.trans a.l
  c := b.c.trans a.c
  resSide := b.resSide.trans a.resSide
  const := b.const.trans a.const
  unread := fun h => b.unread (a.unread h)

theorem Tunes.drives {k : Config} {n : Nat} {s u : State} {h : List BusEvent} (a : Tunes k n s u h) : Drives s u :=
  ⟨a.p_eq, a.scanActive_eq, a.scanIdx_eq, a.scanCode_eq, a.l_eq, a.c_eq, a.resSide_eq, a.const, a.unread⟩

theorem Drives.tune (k : Config) (f : Int) (s : State) : Drives s (tune k f s) := .ofImage rfl

theorem Drives.retuneFast (k : Config) (f : Int) (s : State) : Drives s (retuneFast k f s) :=
  (Drives.tune k f s).trans (Drives.flush k _)

theorem Drives.recordSearch (up : Bool) (c : StopCode) (s : State) : Drives s (recordSearch up c s) := .ofImage rfl

theorem Drives.takeTimeout (k : Config) (s : State) : Drives s (takeTimeout (busRead k s)) :=
  ⟨rfl, rfl, rfl, rfl, rfl, rfl, rfl, rfl, id⟩

theorem Drives.takeFrame (k : Config) (m : Image) (s : State) : Drives s (takeFrame m (busRead k s)) :=
  ⟨rfl, rfl, rfl, rfl, rfl, rfl, rfl, rfl, fun _ h => nomatch h⟩

theorem ReadsOnly.drives {k : Config} {s t : State} {h : List BusEvent} (a : ReadsOnly k s t h)
    (unread : (s.rdValid = false → s.st.valid = false) → t.rdValid = false → t.st.valid = false) : Drives s t := by
  refine ⟨?_, ?_, ?_, ?_, ?_, ?_, ?_, ?_, unread⟩ <;> rw [a.same]

/-- `readAndDecode` (R151 to R155): it decodes after a successful read only, and a COMM_ERROR decodes nothing. -/
theorem ReadEnds.drives {k : Config} {n : Nat} (hn : 0 < n) {s t : State} {r : ReadResult} (e : ReadEnds k n s r t) :
    Drives s t := by
  obtain ⟨h, ro, -⟩ := e.reads
  refine ro.drives fun hs hv => ?_
  cases r with
  | ok =>
    obtain ⟨-, read, -⟩ := e.ok rfl
    exact absurd (hv.symm.trans read) (by decide)
  | notReady =>
    obtain ⟨-, h0⟩ | ⟨-, read, -⟩ := e.notReady rfl
    · omega
    · exact absurd (hv.symm.trans read) (by decide)
  | commError =>
    obtain ⟨st, ⟨-, rdValid⟩ | ⟨-, read⟩⟩ := e.commError rfl
    · rw [st]
      exact hs (rdValid.symm.trans hv)
    · exact absurd (hv.symm.trans read) (by decide)

theorem Drives.readAndDecode (s : State) : Drives s (readAndDecode params s).2 :=
  (readAndDecode_ends params (by decide) s).drives (by decide)

theorem Drives.setStation (f : Int) (s : State) : Drives s (setStation params f s).2 := by
  obtain ⟨h, hT, -⟩ := setStation_cases params (by decide) (by decide) f s
  exact hT.drives

/-! ## What a command writes -/

/-- The commands that write none of P, the scan registers, L, C and resSide (R37 to R41). -/
def busOnly : Instr → Bool
  | .optimize _ | .searchStep _ _ _ | .scanBegin _ | .scanStep | .presetNext | .presetPrev | .presetDelete => false
  | _ => true

/-- `Writes s i r m s'`: command `i`, started in `s`, writes the registers P, the scan registers, L, C and resSide as `s'`
has them when it ends with result `r` and the frame `m` in Rd (R37 to R41, R187, R195, R196, R221 to R223). -/
inductive Writes (s : State) : Instr → Result → Image → State → Prop
  /-- A command that drives the bus or writes W, and no more. -/
  | bus {i r m} (hi : busOnly i = true) : Writes s i r m s
  /-- A failed range check; SCAN_BEGIN has none. -/
  | outOfRange {i m} (hi : ∀ lvl, i ≠ .scanBegin lvl) : Writes s i .rangeFault m s
  /-- OPTIMIZE at a COMM_ERROR chooses no side. -/
  | unchosen {f m} : Writes s (.optimize f) .commError m s
  | chooses {f m} (sd : Bool) : Writes s (.optimize f) .ok m { s with resSide := sd }
  /-- The wrap of a search step, and a step that captures nothing. -/
  | probes {up lvl cap r m} (q : Freq) (hq : inSomeBand params q.toNat = true) (hr : r = .complete → cap = false) :
      Writes s (.searchStep up lvl cap) r m { s with p := q }
  | captures {up lvl m} (q : Freq) (hq : inSomeBand params q.toNat = true) :
      Writes s (.searchStep up lvl true) .complete m { s with p := q, l := s.l ++ [q] }
  | begins {lvl m} : Writes s (.scanBegin lvl) .ok m
      { s with l := [], c := 0, scanCode := levelCode lvl, scanIdx := 0#16, scanActive := true }
  | idles {m} : Writes s .scanStep .scanIdle m s
  /-- A scan that ends at entry or at a COMM_ERROR: the index stays. -/
  | ends {r m} : Writes s .scanStep r m { s with scanActive := false }
  /-- An examined frequency that is no station. -/
  | skips {r m act} (ha : scanOk params { s with scanIdx := s.scanIdx + 1#16, scanActive := act } = true)
      (hm : ¬ Takes params m s.scanCode) :
      Writes s .scanStep r m { s with scanIdx := s.scanIdx + 1#16, scanActive := act }
  /-- An examined frequency that is a station. -/
  | takes {r m act} (f : Freq)
      (ha : scanOk params { s with scanIdx := s.scanIdx + 1#16, scanActive := act } = true)
      (hm : Takes params m s.scanCode) (hf : (f.toNat : Int) = scanHz s) (hb : inSomeBand params f.toNat = true) :
      Writes s .scanStep r m { s with scanIdx := s.scanIdx + 1#16, scanActive := act, l := s.l ++ [f] }
  /-- A preset command on the empty list. -/
  | findsNone {i m} (hi : i = .presetNext ∨ i = .presetPrev ∨ i = .presetDelete) (hl : s.l = []) :
      Writes s i .empty m s
  | moves {i m} (hi : i = .presetNext ∨ i = .presetPrev) (n : Nat) (hn : n < s.l.length) :
      Writes s i .ok m { s with c := n }
  | deletes {r m} (n : Nat) (hn : cursorOk { s with l := s.l.eraseIdx s.c, c := n } = true) (hr : r ≠ .rangeFault) :
      Writes s .presetDelete r m { s with l := s.l.eraseIdx s.c, c := n }

/-- How a command ends: it writes its registers, drives the bus and ends with a result. -/
inductive Ends (i : Instr) (s : State) : State → Prop
  | intro {r s' u} (hw : Writes s i r u.rd s') (hd : Drives s' u) : Ends i s (finish r u)

theorem raiseRangeFault_ends {i : Instr} {s t : State} (hi : ∀ lvl, i ≠ .scanBegin lvl)
    (h : raiseRangeFault s = .next t) : Ends i s t := by
  cases h
  exact .intro (.outOfRange hi) (.refl s)

theorem finishSetter_ends {i : Instr} {w : Image} {s t : State} (hi : busOnly i = true)
    (h : finishSetter w s = .next t) (hc : imageConst w = imageConst s.w) : Ends i s t := by
  cases h
  exact .intro (.bus hi) (.ofImage hc)

theorem execSetFreq_ends {f : Freq} {s t : State} (h : execSetFreq f s = .next t) : Ends (.setFreq f) s t := by
  unfold execSetFreq setFreqWith at h
  split at h
  · cases h
    exact .intro (.bus rfl) (.tune ..)
  · exact raiseRangeFault_ends nofun h

theorem execFlush_ends {s t : State} (h : execFlush s = .next t) : Ends .flush s t := by
  cases h
  exact .intro (.bus rfl) (.flush ..)

theorem execReadRaw_ends {s t : State} (h : execReadRaw s = .next t) : Ends .readRaw s t := by
  obtain ⟨-, e⟩ | ⟨m, -, e⟩ := readRaw_cases params s <;> rw [execReadRaw, readRawWith, e] at h <;> cases h
  · exact .intro (.bus rfl) (.takeTimeout ..)
  · exact .intro (.bus rfl) (.takeFrame ..)

theorem execReadDecode_ends {s t : State} (h : execReadDecode s = .next t) : Ends .readDecode s t := by
  cases h
  exact .intro (.bus rfl) (.readAndDecode s)

theorem execOptimize_ends {f : Freq} {s t : State} (h : execOptimize f s = .next t) : Ends (.optimize f) s t := by
  unfold execOptimize optimizeWith at h
  split at h
  · obtain ⟨_, u, sd, e, hT, -⟩ | ⟨_, u, e, hT, -⟩ := optimize_cases params (by decide) (by decide) f.toNat s <;>
      rw [e] at h <;> cases h
    · exact .intro (.chooses (sideBit sd)) { hT.drives with resSide := rfl }
    · exact .intro .unchosen hT.drives
  · exact raiseRangeFault_ends nofun h

theorem execSetStation_ends {f : Freq} {s t : State} (h : execSetStation f s = .next t) : Ends (.setStation f) s t := by
  unfold execSetStation setStationWith at h
  split at h
  · cases h
    exact .intro (.bus rfl) (.setStation ..)
  · exact raiseRangeFault_ends nofun h

/-! ## The search step -/

/-- The frequency P wraps to is a bound of the current band (R187, R188). -/
theorem inSomeBand_wrap (up : Bool) (w : Image) :
    inSomeBand params (freqReg params (if up then (bounds params w).1 else (bounds params w).2)).toNat = true := by
  have := bounds_params_le w
  cases up
  · exact inSomeBand_freqReg this le_rfl
  · exact inSomeBand_freqReg le_rfl this

/-- An accepted search step captures P exactly when it is COMPLETE with capture; the capacity is unbounded (R190, R191). -/
theorem searchAccepted_ends {up : Bool} {lvl : Level} {cap : Bool} {q : Freq} {s s' : State}
    (hq : inSomeBand params q.toNat = true) (d : Drives { s with p := q } s') :
    Ends (.searchStep up lvl cap) s (searchAccepted params cap s') := by
  obtain ⟨u, _, hT, -, e⟩ := searchAccepted_cases params (by decide) (by decide) cap s'
  have du := d.trans hT.drives
  obtain e | ⟨-, ⟨rfl, e⟩ | ⟨rfl, -, e⟩ | ⟨-, full, -⟩⟩ := e
  · rw [e]
    exact .intro (.probes q hq (by simp)) du
  · rw [e]
    exact .intro (.probes q hq (by simp)) du
  · rw [e, d.l, d.p]
    exact .intro (.captures q hq) { du with l := rfl }
  · exact nomatch full

/-- An in-band search step advances P, and goes on to the accepted end or is PENDING or COMM_ERROR (R187, R202). -/
theorem searchProbe_ends {up : Bool} {lvl : Level} {c : StopCode} {cap : Bool} {q : Freq} {s s' : State}
    (hq : inSomeBand params q.toNat = true) (d : Drives { s with p := q } s') :
    Ends (.searchStep up lvl cap) s (searchProbe params c cap s') := by
  obtain ⟨u, _, hT, -, e⟩ := searchProbe_cases params (by decide) (by decide) c cap s'
  have du := d.trans hT.drives
  obtain e | ⟨-, e | ⟨-, e⟩⟩ := e <;> rw [e]
  · exact .intro (.probes q hq (by simp)) du
  · exact .intro (.probes q hq (by simp)) du
  · exact searchAccepted_ends hq du

theorem execSearchStep_ends {up : Bool} {lvl : Level} {cap : Bool} {s t : State}
    (h : execSearchStep up lvl cap s = .next t) : Ends (.searchStep up lvl cap) s t := by
  have d (q : Freq) : Drives { s with p := q } { recordSearch up (levelCode lvl) s with p := q } :=
    { Drives.recordSearch up (levelCode lvl) s with p := rfl }
  unfold execSearchStep searchStepWith at h
  split at h
  · cases h
    exact .intro (.probes _ (inSomeBand_wrap up s.w) (by simp)) (d _)
  next inside =>
    obtain ⟨hi, lo⟩ := not_or.mp inside
    split at h
    · cases h
      exact searchProbe_ends (inSomeBand_freqReg (not_lt.mp lo) (not_lt.mp hi)) (d _)
    · exact raiseRangeFault_ends nofun h

/-! ## The band scan -/

theorem execScanBegin_ends {lvl : Level} {s t : State} (h : execScanBegin lvl s = .next t) : Ends (.scanBegin lvl) s t := by
  cases h
  exact .intro .begins { Drives.recordSearch true (levelCode lvl) s with
    scanActive := rfl, scanIdx := rfl, scanCode := rfl, l := rfl, c := rfl }

/-- The index advances past an examined frequency; a scan that goes on has a frequency left in the band (R196, R198). -/
theorem scanAdvance_eq (s : State) : ∃ r act,
    scanOk params { s with scanIdx := s.scanIdx + 1#16, scanActive := act } = true ∧
    scanAdvance params s = finish r { s with scanIdx := s.scanIdx + 1#16, scanActive := act } := by
  obtain ⟨left, e⟩ | ⟨-, e⟩ := scanAdvance_cases params s
  · refine ⟨_, s.scanActive, ?_, e⟩
    rw [scanOk, Bool.or_eq_true, List.any_eq_true]
    exact .inr ⟨band s.w, by cases band s.w <;> decide, decide_eq_true left⟩
  · exact ⟨_, false, rfl, e⟩

/-- Examining an in-band frequency (R196): it is appended exactly when its last frame is taken for a station. -/
theorem scanExamine_ends {s : State} (hi : scanFreq params s ≤ (bounds params s.w).2) :
    Ends .scanStep s (scanExamine params (scanFreq params s) s) := by
  obtain ⟨u, _, hT, e | ⟨hm, e⟩ | ⟨hm, ⟨-, e⟩ | ⟨full, -⟩⟩⟩ :=
    scanExamine_appends params (by decide) (by decide) (scanFreq params s) s
  · rw [e]
    exact .intro .ends { hT.drives with scanActive := rfl }
  · obtain ⟨r, act, ha, e'⟩ := scanAdvance_eq u
    have idx := hT.scanIdx_eq
    rw [e, e', idx]
    rw [idx] at ha
    exact .intro (.skips ha hm) { hT.drives with scanActive := rfl, scanIdx := rfl }
  · obtain ⟨r, act, ha, e'⟩ := scanAdvance_eq { u with l := s.l ++ [freqReg params (scanFreq params s)] }
    have idx := hT.scanIdx_eq
    rw [e, e', idx]
    rw [idx] at ha
    have lo : (bounds params s.w).1 ≤ scanFreq params s := by simp [scanFreq]
    have hf := (freqReg_of_bounds lo hi).trans (scanFreq_params s)
    exact .intro (.takes _ ha hm hf (inSomeBand_freqReg lo hi))
      { hT.drives with scanActive := rfl, scanIdx := rfl, l := rfl }
  · exact nomatch full

theorem execScanStep_ends {s t : State} (h : execScanStep s = .next t) : Ends .scanStep s t := by
  unfold execScanStep scanStepWith at h
  split at h
  · cases h
    exact .intro .idles (.refl s)
  split at h
  · cases h
    exact .intro .ends (.refl _)
  next inside =>
    split at h
    · cases h
      exact scanExamine_ends (not_lt.mp inside)
    · exact raiseRangeFault_ends nofun h

/-! ## The presets -/

theorem gotoPreset_ends {i : Instr} {n : Nat} {s t : State} (hi : i = .presetNext ∨ i = .presetPrev)
    (hn : n < s.l.length) (h : gotoPreset params n s = .next t) : Ends i s t := by
  unfold gotoPreset at h
  split at h
  · cases h
    exact .intro (.moves hi n hn) (.retuneFast ..)
  · exact raiseRangeFault_ends (by rintro lvl rfl; simp at hi) h

theorem execPresetNext_ends {s t : State} (h : execPresetNext s = .next t) : Ends .presetNext s t := by
  unfold execPresetNext presetNextWith at h
  split at h
  next empty =>
    cases h
    exact .intro (.findsNone (by simp) (List.length_eq_zero_iff.mp empty)) (.refl s)
  next nonempty => exact gotoPreset_ends (.inl rfl) (Nat.mod_lt _ (Nat.pos_of_ne_zero nonempty)) h

theorem execPresetPrev_ends {s t : State} (h : execPresetPrev s = .next t) : Ends .presetPrev s t := by
  unfold execPresetPrev presetPrevWith at h
  split at h
  next empty =>
    cases h
    exact .intro (.findsNone (by simp) (List.length_eq_zero_iff.mp empty)) (.refl s)
  next nonempty => exact gotoPreset_ends (.inr rfl) (Nat.mod_lt _ (Nat.pos_of_ne_zero nonempty)) h

/-- A cursor inside the list is valid (R225). -/
theorem cursorOk_of_lt {s : State} (h : s.c < s.l.length) : cursorOk s = true := by
  have nonempty : s.l ≠ [] := List.ne_nil_of_length_pos (by omega)
  simp [cursorOk, nonempty, h]

/-- The clamped cursor lies inside a nonempty list (R223, R225). -/
theorem clampCursor_lt {c n : Nat} (hn : n ≠ 0) : clampCursor c n < n := by
  unfold clampCursor
  split <;> omega

theorem readResult_ne_rangeFault (r : ReadResult) : readResult r ≠ .rangeFault := by cases r <;> decide

theorem execPresetDelete_ends {s t : State} (h : execPresetDelete s = .next t) : Ends .presetDelete s t := by
  unfold execPresetDelete presetDeleteWith removePreset at h
  split at h
  next empty =>
    cases h
    exact .intro (.findsNone (by simp) (List.length_eq_zero_iff.mp empty)) (.refl s)
  dsimp only at h
  split at h
  next last =>
    cases h
    exact .intro (.deletes 0 (by simp [cursorOk, List.length_eq_zero_iff.mp last]) (by decide)) (.refl _)
  next left =>
    split at h
    · cases h
      exact .intro (.deletes _ (cursorOk_of_lt (clampCursor_lt left)) (readResult_ne_rangeFault _)) (.setStation ..)
    · exact raiseRangeFault_ends nofun h

/-! ## Every command -/

theorem exec_ends {i : Instr} {s t : State} (h : exec i s = .next t) : Ends i s t := by
  cases i with
  | setFreq f => exact execSetFreq_ends h
  | setMute v | setSearchMode v | setSearchDir v | setInjection v | setMono v | setMuteRight v | setMuteLeft v | setSwp1 v
  | setStopLevel v => exact finishSetter_ends rfl h rfl
  | setSwp2 v | setStandby v | setBand v | setSoftMute v | setHighCut v | setNoiseCancel v | setSearchInd v =>
    exact finishSetter_ends rfl h (imageConst_putBit_b3 s.w _ v (by decide))
  | setDeemph v => exact finishSetter_ends rfl h (imageConst_putDeemph s.w v)
  | flush => exact execFlush_ends h
  | readRaw => exact execReadRaw_ends h
  | readDecode => exact execReadDecode_ends h
  | optimize f => exact execOptimize_ends h
  | setStation f => exact execSetStation_ends h
  | searchStep up lvl cap => exact execSearchStep_ends h
  | scanBegin lvl => exact execScanBegin_ends h
  | scanStep => exact execScanStep_ends h
  | presetNext => exact execPresetNext_ends h
  | presetPrev => exact execPresetPrev_ends h
  | presetDelete => exact execPresetDelete_ends h

/-! ## The writers of a register (R37, R38, R41) -/

theorem Writes.searchStep_of_p_ne {s s' : State} {i : Instr} {r : Result} {m : Image} (h : Writes s i r m s')
    (hp : s'.p ≠ s.p) : ∃ up lvl cap, i = .searchStep up lvl cap := by
  cases h with
  | probes | captures => exact ⟨_, _, _, rfl⟩
  | _ => exact absurd rfl hp

theorem Writes.scan_of_scan_ne {s s' : State} {i : Instr} {r : Result} {m : Image} (h : Writes s i r m s')
    (hs : s'.scanActive ≠ s.scanActive ∨ s'.scanIdx ≠ s.scanIdx ∨ s'.scanCode ≠ s.scanCode) :
    i = .scanStep ∨ ∃ lvl, i = .scanBegin lvl := by
  cases h with
  | begins => exact .inr ⟨_, rfl⟩
  | ends | skips | takes => exact .inl rfl
  | _ => simp at hs

theorem Writes.optimize_of_resSide_ne {s s' : State} {i : Instr} {r : Result} {m : Image} (h : Writes s i r m s')
    (hs : s'.resSide ≠ s.resSide) : ∃ f, i = .optimize f := by
  cases h with
  | chooses => exact ⟨_, rfl⟩
  | _ => exact absurd rfl hs

/-! ## The preset list (R39) -/

/-- The numbers of the result codes tell them apart (R241). -/
theorem resultCode_toNat_injective {r r' : Result} (h : (resultCode r).toNat = (resultCode r').toNat) : r = r' := by
  revert h
  cases r <;> cases r' <;> decide

/-- A scan step that did not examine a frequency, or did not take it for a station, leaves L. -/
theorem presetsAfter_scanStep_of_keeps {s t : State} (hl : t.l = s.l)
    (h : t.scanIdx = s.scanIdx ∨ ¬ Takes params t.rd s.scanCode) : presetsAfter .scanStep s t := by
  rw [takes_params_iff] at h
  exact ⟨fun ⟨idx, frame⟩ => (h.elim idx (· frame)).elim, fun _ => hl⟩

/-- What the registers a command writes do to L (R39). -/
theorem Writes.presetsAfter {s s' u : State} {i : Instr} {r : Result} (h : Writes s i r u.rd s') (d : Drives s' u) :
    presetsAfter i s (finish r u) := by
  have hl : (finish r u).l = s'.l := d.l
  have hp : (finish r u).p = s'.p := d.p
  have idx : (finish r u).scanIdx = s'.scanIdx := d.scanIdx
  cases h with
  | bus hi =>
    cases i with
    | optimize | searchStep | scanBegin | scanStep | presetNext | presetPrev | presetDelete => exact nomatch hi
    | _ => exact hl
  | outOfRange hi =>
    cases i with
    | scanBegin lvl => exact absurd rfl (hi lvl)
    | searchStep => exact hl.trans (if_neg fun complete => nomatch complete.1).symm
    | scanStep => exact presetsAfter_scanStep_of_keeps hl (.inl idx)
    | presetDelete => exact hl.trans (if_pos rfl).symm
    | _ => exact hl
  | unchosen | chooses => exact hl
  | probes q hq hr =>
    exact hl.trans (if_neg fun ⟨complete, hc⟩ => by
      rw [hr (resultCode_toNat_injective complete)] at hc
      exact nomatch hc).symm
  | captures q hq =>
    refine hl.trans ((if_pos ⟨rfl, rfl⟩).trans ?_).symm
    rw [hp]
  | begins => exact hl
  | idles | ends => exact presetsAfter_scanStep_of_keeps hl (.inl idx)
  | skips ha hm => exact presetsAfter_scanStep_of_keeps hl (.inr hm)
  | takes f ha hm hf hb =>
    have advanced : (finish r u).scanIdx ≠ s.scanIdx := by
      rw [idx]
      simp
    exact ⟨fun _ => ⟨f, hf, hl⟩, fun no => (no ⟨advanced, (takes_params_iff _ _).mp hm⟩).elim⟩
  | findsNone hi empty =>
    rcases hi with rfl | rfl | rfl
    · exact hl
    · exact hl
    · exact hl.trans (by simp [empty])
  | moves hi n hn => rcases hi with rfl | rfl <;> exact hl
  | deletes n hn hr => exact hl.trans (if_neg fun fault => hr (resultCode_toNat_injective fault)).symm

/-! ## The invariant (R45) -/

theorem resultCode_toNat_le (r : Result) : (resultCode r).toNat ≤ 13 := by cases r <;> decide

/-- Appending an entry keeps the cursor valid (R220, R225). -/
theorem cursorOk_append {s : State} (f : Freq) (h : cursorOk s = true) : cursorOk { s with l := s.l ++ [f] } = true := by
  refine cursorOk_of_lt ?_
  rw [cursorOk] at h
  split at h
  · simp_all
  · have := of_decide_eq_true h
    simp
    omega

/-- Index 0 lies in both bands (R195). -/
theorem scanOk_first {s : State} (h : s.scanIdx = 0#16) : scanOk params s = true := by
  rw [scanOk, h]
  exact Bool.or_eq_true_iff.mpr (.inr (by decide))

/-- Ending a command keeps the invariant: of what it covers, only `res` changes. -/
theorem Inv.finish {s : State} (h : Inv s) (r : Result) : Inv (finish r s) := { h with result := resultCode_toNat_le r }

/-- Driving the bus and ending the command keeps the invariant. -/
theorem Drives.inv {s u : State} (d : Drives s u) (h : Inv s) (r : Result) : Inv (Machine.finish r u) where
  image := d.const.trans h.image
  cursor := by
    rw [cursorOk, finish_l, finish_c, d.l, d.c]
    exact h.cursor
  scan := by
    rw [scanOk, finish_scanActive, finish_scanIdx, d.scanActive, d.scanIdx]
    exact h.scan
  unread := d.unread h.unread
  probe := by
    rw [finish_p, d.p]
    exact h.probe
  presets := by
    rw [finish_l, d.l]
    exact h.presets
  result := resultCode_toNat_le r

/-- The registers a command writes meet the invariant. -/
theorem Writes.inv {s s' : State} {i : Instr} {r : Result} {m : Image} (w : Writes s i r m s') (h : Inv s) : Inv s' := by
  have append (f : Freq) (hf : inSomeBand params f.toNat = true) :
      (s.l ++ [f]).all (fun f => inSomeBand params f.toNat) = true := by simpa [hf] using h.presets
  cases w with
  | bus | outOfRange | unchosen | idles | findsNone => exact h
  | chooses => exact { h with }
  | probes q hq => exact { h with probe := hq }
  | captures q hq => exact { h with probe := hq, cursor := cursorOk_append q h.cursor, presets := append q hq }
  | begins => exact { h with cursor := rfl, scan := scanOk_first rfl, presets := rfl }
  | ends => exact { h with scan := rfl }
  | skips ha => exact { h with scan := ha }
  | takes f ha hm hf hb =>
    exact { h with scan := ha, cursor := cursorOk_append f h.cursor, presets := append f hb }
  | moves hi n hn => exact { h with cursor := cursorOk_of_lt hn }
  | deletes n hn =>
    have rest : (s.l.eraseIdx s.c).all (fun f => inSomeBand params f.toNat) = true :=
      List.all_eq_true.mpr fun f hf => List.all_eq_true.mp h.presets f (List.mem_of_mem_eraseIdx hf)
    exact { h with cursor := hn, presets := rest }

theorem Inv.exec {i : Instr} {s t : State} (hi : Inv s) (h : exec i s = .next t) : Inv t := by
  obtain ⟨hw, hd⟩ := exec_ends h
  exact hd.inv (hw.inv hi) _

/-- The host's stream of words is no part of the invariant. -/
theorem Inv.withPort {s : State} (h : Inv s) (port : List Word) : Inv { s with port := port } := { h with }

/-- A step does nothing at an empty port, ends an illegal word with ILLEGAL, and runs a legal one (R80, R85, R245). -/
theorem step_cases {s t : State} (h : step s = .next t) :
    t = s ∨ ∃ rest, t = finish .illegal { s with port := rest } ∨ ∃ i, exec i { s with port := rest } = .next t := by
  unfold step acceptWord at h
  cases hp : s.port with
  | nil =>
    rw [hp] at h
    cases h
    exact .inl rfl
  | cons w rest =>
    rw [hp] at h
    dsimp only at h
    refine .inr ⟨rest, ?_⟩
    cases hd : decodeCmd w with
    | ok i =>
      rw [hd] at h
      exact .inr ⟨i, h⟩
    | error e =>
      rw [hd] at h
      cases h
      exact .inl rfl

end Sys2Proof.Machine

namespace Sys2Proof

open Machine Claims

/-- Settles O57: what a command writes, what it drives and how it ends each keep the invariant. -/
theorem everyStepKeepsTheInvariant : Obligations.EveryStepKeepsTheInvariant := by
  intro s t hi h
  obtain rfl | ⟨rest, rfl | ⟨i, e⟩⟩ := step_cases h
  · exact hi
  · exact (hi.withPort rest).finish .illegal
  · exact (hi.withPort rest).exec e

/-- Settles O50, by the writers of P. -/
theorem onlySearchStepWritesTheProbe : Obligations.OnlySearchStepWritesTheProbe := by
  refine ⟨by decide, fun i s t h hp => ?_⟩
  obtain ⟨hw, hd⟩ := exec_ends h
  rw [finish_p, hd.p] at hp
  exact hw.searchStep_of_p_ne hp

/-- Settles O51, by the writers of the scan registers. -/
theorem onlyScanCommandsWriteTheScanRegisters : Obligations.OnlyScanCommandsWriteTheScanRegisters := by
  refine ⟨⟨rfl, rfl, rfl⟩, fun i s t h hs => ?_⟩
  obtain ⟨hw, hd⟩ := exec_ends h
  rw [finish_scanActive, finish_scanIdx, finish_scanCode, hd.scanActive, hd.scanIdx, hd.scanCode] at hs
  exact hw.scan_of_scan_ne hs

/-- Settles O52, by the writers of L. -/
theorem writersOfThePresetList : Obligations.WritersOfThePresetList := by
  refine ⟨rfl, fun i s t h => ?_⟩
  obtain ⟨hw, hd⟩ := exec_ends h
  exact hw.presetsAfter hd

/-- Settles O53, by the writers of resSide. -/
theorem onlyOptimizeWritesTheResultSide : Obligations.OnlyOptimizeWritesTheResultSide := by
  refine ⟨⟨rfl, rfl⟩, fun i s t h hs => ?_⟩
  obtain ⟨hw, hd⟩ := exec_ends h
  rw [finish_resSide, hd.resSide] at hs
  exact hw.optimize_of_resSide_ne hs

/-- Settles O58, by evaluating each clause on the reset state. -/
theorem resetMeetsTheInvariants : Obligations.ResetMeetsTheInvariants :=
  ⟨⟨by decide, by decide, by decide, by decide, by decide, by decide, by decide⟩, rfl, rfl⟩

end Sys2Proof

/-! SUPPORT. The decoder against the opcode map (30_encoding.md R80 to R85): the opcode picks at most one row, and the row's
form says which operand bits must be zero. What the decoder does with a word is said once (`decodeCmd_reads`), and the
statements about legal and illegal words are read off it. -/

namespace Sys2Proof

/-! ## The opcode of an encoded command (R80) -/

@[simp] theorem opField_encodeF (op : BitVec 5) (f : Freq) : opField (encodeF op f) = op := opField_layOut _ _
@[simp] theorem opField_encodeB (op : BitVec 5) (v : Bool) : opField (encodeB op v) = op := opField_layOut _ _
@[simp] theorem opField_encodeL (op : BitVec 5) (lvl : Level) : opField (encodeL op lvl) = op := opField_layOut _ _
@[simp] theorem opField_encodeS (op : BitVec 5) (up : Bool) (lvl : Level) (cap : Bool) :
    opField (encodeS op up lvl cap) = op := opField_layOut _ _
@[simp] theorem opField_encodeN (op : BitVec 5) : opField (encodeN op) = op := opField_layOut _ _

/-! ## The rows of the opcode map (R82) -/

/-- The operand bits a form uses: the lowest ones (R81). -/
def Form.width : Form → Nat
  | .F => 27
  | .B => 1
  | .L => 3
  | .S => 5
  | .N => 0

/-- The operand bits a form requires to be zero (R81, R84). -/
def Form.zeros (f : Form) : Freq := BitVec.allOnes 27 <<< f.width

/-- The row an opcode picks (R82); opcodes 0x00, 0x1E and 0x1F pick none (R83). -/
def rowAt (op : BitVec 5) : Option OpRow := opRows.find? fun r => opField r.matchWord == op

/-- A row's words are laid out as R80 and R81 say: the mask sees the opcode and the must-be-zero bits of the form. -/
theorem opRows_layOut : ∀ r ∈ opRows,
    r.maskWord = layOut 0x1F#5 r.form.zeros ∧ r.matchWord = layOut (opField r.matchWord) 0#27 := by decide

/-- No two rows share an opcode. -/
theorem rowAt_of_mem : ∀ r ∈ opRows, rowAt (opField r.matchWord) = some r := by decide

theorem mem_of_rowAt {op : BitVec 5} {r : OpRow} (h : rowAt op = some r) : r ∈ opRows := List.mem_of_find?_eq_some h

theorem opField_of_rowAt {op : BitVec 5} {r : OpRow} (h : rowAt op = some r) : opField r.matchWord = op := by
  simpa using List.find?_some h

/-- The opcodes of no row are 0x00, 0x1E and 0x1F (R83). -/
theorem rowAt_eq_none_iff : ∀ op, rowAt op = none ↔ op.toNat = 0 ∨ 30 ≤ op.toNat := by decide

/-- A word selects a row exactly when its opcode is the row's and it has the must-be-zero bits clear (R80, R82). -/
theorem and_layOut_eq_iff (w : Word) (op : BitVec 5) (y : Freq) :
    w &&& layOut 0x1F#5 y = layOut op 0#27 ↔ opField w = op ∧ w.extractLsb' 0 27 &&& y = 0#27 := by
  constructor
  · intro h
    constructor
    · have ones : opField w &&& 0x1F#5 = opField w := BitVec.and_allOnes
      calc opField w = opField w &&& opField (layOut 0x1F#5 y) := by rw [opField_layOut, ones]
        _ = opField (w &&& layOut 0x1F#5 y) := BitVec.extractLsb'_and.symm
        _ = op := by rw [h, opField_layOut]
    · have := congrArg (BitVec.extractLsb' 0 27) h
      simpa [BitVec.extractLsb'_and, extract_layOut] using this
  · rintro ⟨rfl, h⟩
    have := Laws.Encoding.layOut_selects (opField w) _ y h
    rwa [layOut_fields] at this

/-- The rows a word selects, by the opcode that picks the row and the operand bits its form requires to be zero. -/
theorem mem_and_selects_iff {w : Word} {r : OpRow} : r ∈ opRows ∧ w &&& r.maskWord = r.matchWord ↔
    rowAt (opField w) = some r ∧ w.extractLsb' 0 27 &&& r.form.zeros = 0#27 := by
  have key (hr : r ∈ opRows) : w &&& r.maskWord = r.matchWord ↔
      opField w = opField r.matchWord ∧ w.extractLsb' 0 27 &&& r.form.zeros = 0#27 := by
    obtain ⟨mask, laid⟩ := opRows_layOut r hr
    rw [mask, ← and_layOut_eq_iff, ← laid]
  constructor
  · rintro ⟨hr, h⟩
    obtain ⟨op, zeros⟩ := (key hr).mp h
    exact ⟨op ▸ rowAt_of_mem r hr, zeros⟩
  · rintro ⟨hr, zeros⟩
    exact ⟨mem_of_rowAt hr, (key (mem_of_rowAt hr)).mpr ⟨(opField_of_rowAt hr).symm, zeros⟩⟩

/-! ## The operand of a legal word (R81, R84) -/

/-- The operand bits from bit `n` up are zero exactly when each of them is. -/
theorem extract_high_eq_zero_iff (w : Word) (n : Nat) :
    w.extractLsb' n (27 - n) = 0#(27 - n) ↔ ∀ i, n ≤ i → i < 27 → w.getLsbD i = false := by
  constructor
  · intro h i hn hi
    have bit := congrArg (BitVec.getLsbD · (i - n)) h
    simpa [BitVec.getLsbD_extractLsb', (by omega : i - n < 27 - n), Nat.add_sub_cancel' hn] using bit
  · intro h
    ext i hi
    simpa using h (n + i) (by omega) (by omega)

/-- A mask of the operand bits from bit `n` up sees none exactly when each of them is zero. -/
theorem operand_and_high_eq_zero_iff (w : Word) (n : Nat) :
    w.extractLsb' 0 27 &&& BitVec.allOnes 27 <<< n = 0#27 ↔ ∀ i, n ≤ i → i < 27 → w.getLsbD i = false := by
  have view (i : Nat) (hi : i < 27) :
      (w.extractLsb' 0 27 &&& BitVec.allOnes 27 <<< n).getLsbD i = (w.getLsbD i && decide (n ≤ i)) := by
    rw [BitVec.getLsbD_and, BitVec.getLsbD_extractLsb', BitVec.getLsbD_shiftLeft, BitVec.getLsbD_allOnes]
    simp [hi, (by omega : i - n < 27), ← decide_not]
  constructor
  · intro h i hn hi
    rw [h] at view
    simpa [hn] using (view i hi).symm
  · intro h
    apply BitVec.eq_of_getLsbD_eq
    intro i hi
    rw [view i hi, BitVec.getLsbD_zero]
    by_cases hn : n ≤ i
    · simp [h i hn hi]
    · simp [hn]

/-- A word whose operand is zero from bit `n` up is its opcode and its `n` lowest bits. -/
theorem layOut_low {w : Word} {n : Nat} (h : w.extractLsb' n (27 - n) = 0#(27 - n)) :
    layOut (opField w) ((w.extractLsb' 0 n).setWidth 27) = w := by
  have low : (w.extractLsb' 0 n).setWidth 27 = w.extractLsb' 0 27 := by
    ext i hi
    by_cases lt : i < n
    · simp [lt]
    · simp [lt, (extract_high_eq_zero_iff w n).mp h i (by omega) hi]
  rw [low, layOut_fields]

/-- The five operand bits of form S, from its fields (R81). -/
theorem fieldsS_eq_low (w : Word) :
    (BitVec.ofBool (w.getLsbD 4)).setWidth 27 <<< 4 ||| (w.extractLsb' 1 3).setWidth 27 <<< 1 |||
      (BitVec.ofBool (w.getLsbD 0)).setWidth 27 = ((w.extractLsb' 0 5).setWidth 27 : Freq) := by
  have key : ∀ x : BitVec 5, (BitVec.ofBool (x.getLsbD 4)).setWidth 27 <<< 4 ||| (x.extractLsb' 1 3).setWidth 27 <<< 1 |||
      (BitVec.ofBool (x.getLsbD 0)).setWidth 27 = (x.setWidth 27 : Freq) := by decide
  have level : (w.extractLsb' 0 5).extractLsb' 1 3 = w.extractLsb' 1 3 := by
    ext i hi
    simp
  simpa [level] using key (w.extractLsb' 0 5)

/-! ## What the decoder does with a word (R82 to R85) -/

/-- What the decoder can answer on a word: the command of the row its opcode picks, whose word it is; or a rejection, because
a must-be-zero bit of the row's form is set (R84) or the opcode picks no row (R83). -/
inductive Reads (w : Word) : Except DecodeError Instr → Prop where
  | accepts {r : OpRow} {i : Instr} (row : rowAt (opField w) = some r)
    (zeros : w.extractLsb' 0 27 &&& r.form.zeros = 0#27) (word : encode i = w) (name : mnemonic i = r.mnemonic) :
    Reads w (.ok i)
  | nonzero {r : OpRow} {e : DecodeError} (row : rowAt (opField w) = some r)
    (zeros : w.extractLsb' 0 27 &&& r.form.zeros ≠ 0#27) : Reads w (.error e)
  | noRow {e : DecodeError} (row : rowAt (opField w) = none) : Reads w (.error e)

section
variable {w : Word} {op : BitVec 5} {r : OpRow} (hop : opField w = op) (row : rowAt op = some r)
include hop row

/-- The test that forms B, L, S and N make on the bits above their fields. -/
theorem Reads.ofTest {i : Instr} {e : DecodeError} (n : Nat) (width : r.form.width = n)
    (word : w.extractLsb' n (27 - n) = 0#(27 - n) → encode i = w) (name : mnemonic i = r.mnemonic) :
    Reads w (if w.extractLsb' n (27 - n) = 0#(27 - n) then .ok i else .error e) := by
  subst hop width
  have test := (extract_high_eq_zero_iff w r.form.width).trans (operand_and_high_eq_zero_iff w r.form.width).symm
  split
  next h => exact .accepts row (test.mp h) (word h) name
  next h => exact .nonzero row fun zeros => h (test.mpr zeros)

theorem decodeF_reads {c : Freq → Instr} (form : r.form = .F) (word : ∀ f, encode (c f) = encodeF op f)
    (name : ∀ f, mnemonic (c f) = r.mnemonic) : Reads w (decodeF w c) := by
  subst hop
  refine .accepts row ?_ ((word _).trans (layOut_fields w)) (name _)
  rw [form]
  exact BitVec.and_zero

theorem decodeB_reads {c : Bool → Instr} (form : r.form = .B) (word : ∀ v, encode (c v) = encodeB op v)
    (name : ∀ v, mnemonic (c v) = r.mnemonic) : Reads w (decodeB w c) := by
  refine .ofTest hop row 1 (form ▸ rfl) (fun h => ?_) (name _)
  have bit : BitVec.ofBool (w.getLsbD 0) = w.extractLsb' 0 1 := by
    ext i hi
    obtain rfl : i = 0 := by omega
    simp
  rw [word, encodeB, bit, ← hop, layOut_low h]

theorem decodeL_reads {c : Level → Instr} (form : r.form = .L) (word : ∀ lvl, encode (c lvl) = encodeL op lvl)
    (name : ∀ lvl, mnemonic (c lvl) = r.mnemonic) : Reads w (decodeL w c) := by
  refine .ofTest hop row 3 (form ▸ rfl) (fun h => ?_) (name _)
  rw [word, encodeL, ← hop, layOut_low h]

theorem decodeS_reads {c : Bool → Level → Bool → Instr} (form : r.form = .S)
    (word : ∀ up lvl cap, encode (c up lvl cap) = encodeS op up lvl cap)
    (name : ∀ up lvl cap, mnemonic (c up lvl cap) = r.mnemonic) : Reads w (decodeS w c) := by
  refine .ofTest hop row 5 (form ▸ rfl) (fun h => ?_) (name _ _ _)
  rw [word, encodeS, fieldsS_eq_low, ← hop, layOut_low h]

theorem decodeN_reads {i : Instr} (form : r.form = .N) (word : encode i = encodeN op)
    (name : mnemonic i = r.mnemonic) : Reads w (decodeN w i) := by
  refine .ofTest hop row 0 (form ▸ rfl) (fun h => ?_) name
  have empty : (w.extractLsb' 0 0).setWidth 27 = 0#27 := by simp
  rw [word, encodeN, ← hop, ← empty]
  exact layOut_low h

end

/-- The decoder reads every word by the row its opcode picks: the opcodes of forms F, L, S and N, those of no row, and the
rest, which are of form B. -/
theorem decodeCmd_reads (w : Word) : Reads w (decodeCmd w) := by
  have hop : opField w = BitVec.ofNat 5 (opField w).toNat := by simp
  unfold decodeCmd
  generalize hn : (opField w).toNat = n at hop
  split
  case h_1 | h_22 | h_23 => exact decodeF_reads hop rfl rfl (fun _ => rfl) fun _ => rfl
  case h_5 | h_25 => exact decodeL_reads hop rfl rfl (fun _ => rfl) fun _ => rfl
  case h_24 => exact decodeS_reads hop rfl rfl (fun _ _ _ => rfl) fun _ _ _ => rfl
  case h_19 | h_20 | h_21 | h_26 | h_27 | h_28 | h_29 => exact decodeN_reads hop rfl rfl rfl rfl
  case h_30 =>
    refine .noRow ((rowAt_eq_none_iff _).mpr ?_)
    simp only [imp_false] at *
    omega
  all_goals exact decodeB_reads hop rfl rfl (fun _ => rfl) fun _ => rfl

/-- The row of an accepted word: the command is the row's, and the word is the command's. -/
theorem decodeCmd_ok {w : Word} {i : Instr} (h : decodeCmd w = .ok i) : ∃ r, rowAt (opField w) = some r ∧
    w.extractLsb' 0 27 &&& r.form.zeros = 0#27 ∧ encode i = w ∧ mnemonic i = r.mnemonic := by
  have reads := decodeCmd_reads w
  rw [h] at reads
  cases reads with
  | accepts row zeros word name => exact ⟨_, row, zeros, word, name⟩

/-- The decoder accepts exactly the words that select a row (R82). -/
theorem decodeCmd_ok_iff (w : Word) :
    (∃ i, decodeCmd w = .ok i) ↔ ∃ r ∈ opRows, w &&& r.maskWord = r.matchWord := by
  simp only [mem_and_selects_iff]
  constructor
  · rintro ⟨i, h⟩
    obtain ⟨r, row, zeros, -⟩ := decodeCmd_ok h
    exact ⟨r, row, zeros⟩
  · rintro ⟨r, row, zeros⟩
    have h := decodeCmd_reads w
    generalize decodeCmd w = d at h
    cases h with
    | accepts => exact ⟨_, rfl⟩
    | nonzero row' set =>
      cases row.symm.trans row'
      exact absurd zeros set
    | noRow row' => cases row.symm.trans row'

/-- A word of R83 or R84 is no command. -/
theorem decodeCmd_error_of_illegal {w : Word}
    (h : opField w = 0x00#5 ∨ opField w = 0x1E#5 ∨ opField w = 0x1F#5 ∨
      ∃ r ∈ opRows, opField w = opField r.matchWord ∧ w &&& r.maskWord ≠ r.matchWord) :
    ∃ e, decodeCmd w = .error e := by
  cases hd : decodeCmd w with
  | error e => exact ⟨e, rfl⟩
  | ok i =>
    obtain ⟨r, hr, sel⟩ := (decodeCmd_ok_iff w).mp ⟨i, hd⟩
    have row := (mem_and_selects_iff.mp ⟨hr, sel⟩).1
    obtain h | h | h | ⟨r', hr', op, unsel⟩ := h
    · cases h ▸ row
    · cases h ▸ row
    · cases h ▸ row
    · rw [op, rowAt_of_mem r' hr'] at row
      cases row
      exact absurd sel unsel

end Sys2Proof

namespace Sys2Proof.Machine

/-! ## A step on the word at the port (R80, R85, R245) -/

theorem step_idle {s : State} (h : s.port = []) : step s = .next s := by
  rw [step, acceptWord, h]

theorem step_ok {s : State} {w : Word} {rest : List Word} {i : Instr} (hp : s.port = w :: rest)
    (hd : decodeCmd w = .ok i) : step s = exec i { s with port := rest } := by
  simp only [step, acceptWord, hp, hd]

theorem step_error {s : State} {w : Word} {rest : List Word} {e : DecodeError} (hp : s.port = w :: rest)
    (hd : decodeCmd w = .error e) : step s = .next (finish .illegal { s with port := rest }) := by
  simp only [step, acceptWord, hp, hd, raiseIllegal]

/-! ## The bytes of the write image (R70 to R75) -/

/-- A byte is the sum of its bits. -/
theorem byte_eq_sum_bits (b : Byte) : b.toNat = (b.getLsbD 7).toNat * 128 + (b.getLsbD 6).toNat * 64 +
    (b.getLsbD 5).toNat * 32 + (b.getLsbD 4).toNat * 16 + (b.getLsbD 3).toNat * 8 + (b.getLsbD 2).toNat * 4 +
    (b.getLsbD 1).toNat * 2 + (b.getLsbD 0).toNat := by
  revert b
  decide

theorem pllWord_toNat (w : Image) : (pllWord w).toNat = w.b0.toNat % 64 * 256 + w.b1.toNat := by
  rw [← rdPll_params, rdPll_toNat]

/-- The stop-level code is bits 6 and 5 of byte 2 (R72). -/
theorem stopCode_toNat (w : Image) : (stopCode w).toNat = (w.b2.getLsbD 6).toNat * 2 + (w.b2.getLsbD 5).toNat :=
  (by decide : ∀ b : Byte, (getField b 5 2).toNat = (b.getLsbD 6).toNat * 2 + (b.getLsbD 5).toNat) w.b2

theorem b0_toNat (w : Image) :
    w.b0.toNat = (mute w).toNat * 128 + (searchMode w).toNat * 64 + (pllWord w).toNat / 256 := by
  have high : w.b0.toNat = (mute w).toNat * 128 + (searchMode w).toNat * 64 + w.b0.toNat % 64 :=
    (by decide : ∀ b : Byte, b.toNat = (b.getLsbD 7).toNat * 128 + (b.getLsbD 6).toNat * 64 + b.toNat % 64) w.b0
  rw [pllWord_toNat]
  omega

theorem b2_toNat (w : Image) : w.b2.toNat = (searchUp w).toNat * 128 + (stopCode w).toNat * 32 +
    (injection w).toNat * 16 + (mono w).toNat * 8 + (muteRight w).toNat * 4 + (muteLeft w).toNat * 2 +
    (swp1 w).toNat := by
  have bits := byte_eq_sum_bits w.b2
  rw [stopCode_toNat]
  simp only [searchUp, injection, mono, muteRight, muteLeft, swp1]
  omega

theorem b3_toNat (w : Image) : w.b3.toNat = (swp2 w).toNat * 128 + (standby w).toNat * 64 + (band w).toNat * 32 +
    (xtal w).toNat * 16 + (softMute w).toNat * 8 + (highCut w).toNat * 4 + (noiseCancel w).toNat * 2 +
    (searchInd w).toNat := byte_eq_sum_bits w.b3

/-- The constants of the write image: XTAL, and byte 4 beside DTC (R22, R74, R75). -/
theorem imageConst_iff (w : Image) : imageConst w = true ↔ xtal w = true ∧ w.b4.toNat = (deemph w).toNat * 64 := by
  have byte : ∀ b : Byte, (!b.getLsbD 7 && getField b 0 6 == 0#6) = true ↔ b.toNat = (b.getLsbD 6).toNat * 64 := by
    decide
  rw [imageConst, Bool.and_assoc, Bool.and_eq_true]
  exact and_congr_right fun _ => byte w.b4

end Sys2Proof.Machine

namespace Sys2Proof

open Machine Claims

/-- Settles O1: each command's opcode picks its row, whose form reads back the fields the encoder laid out. -/
theorem decodeInvertsEncode : Obligations.DecodeInvertsEncode := by
  intro i
  cases i with
  | setFreq f | optimize f | setStation f => simp [encode, decodeCmd, decodeF_encodeF]
  | setStopLevel lvl | scanBegin lvl => simp [encode, decodeCmd, decodeL_encodeL]
  | searchStep up lvl cap => simp [encode, decodeCmd, decodeS_encodeS]
  | flush | readRaw | readDecode | scanStep | presetNext | presetPrev | presetDelete =>
    simp [encode, decodeCmd, decodeN_encodeN]
  | _ v => simp [encode, decodeCmd, decodeB_encodeB]

/-- Settles O2: the decoder answers with a command only where that command's word is the word read. -/
theorem encodeInvertsDecode : Obligations.EncodeInvertsDecode := by
  intro w i h
  obtain ⟨-, -, -, word, -⟩ := decodeCmd_ok h
  exact word

/-- Settles O3: the accepted words are those of a row, and a word's opcode picks one row only. -/
theorem legalWordsSelectOneOpcodeRow : Obligations.LegalWordsSelectOneOpcodeRow := by
  refine ⟨decodeCmd_ok_iff, fun w i r h hr sel => ?_⟩
  obtain ⟨r', row', -, -, name⟩ := decodeCmd_ok h
  obtain ⟨row, -⟩ := mem_and_selects_iff.mp ⟨hr, sel⟩
  cases row.symm.trans row'
  exact name.symm

/-- Settles O4: the decoder rejects the word, and a rejected word ends with ILLEGAL. -/
theorem illegalWordsChangeOnlyRes : Obligations.IllegalWordsChangeOnlyRes := by
  intro s w rest hp h
  obtain ⟨e, hd⟩ := decodeCmd_error_of_illegal h
  exact step_error hp hd

/-- Settles O13, byte by byte: a byte is the sum of its bits, and the constants fix the rest. -/
theorem imageBytesAreTheirFields : Obligations.ImageBytesAreTheirFields := by
  intro w h
  obtain ⟨crystal, dtc⟩ := (imageConst_iff w).mp h
  refine ⟨b0_toNat w, ?_, b2_toNat w, ?_, dtc, ?_⟩
  · rw [pllWord_toNat]
    omega
  · rw [b3_toNat, crystal]
    rfl
  · cases hd : deemph w <;> rw [hd] at dtc
    · exact .inl (BitVec.eq_of_toNat_eq dtc)
    · exact .inr (BitVec.eq_of_toNat_eq dtc)

/-- Settles O5: the decoder evaluates on each word. -/
theorem writtenOutWordsDecode : Obligations.WrittenOutWordsDecode := by
  unfold Obligations.WrittenOutWordsDecode
  decide

/-- Settles O6, by the two cases of the port. -/
theorem stepRunsTheDecodedCommand : Obligations.StepRunsTheDecodedCommand :=
  ⟨fun _ _ _ _ => step_ok, fun _ => step_idle⟩

end Sys2Proof

/-! SUPPORT. The codec by the numbers of its rules (40_codec.md R100 to R105), the one command that uses it alone, SET_FREQ
(R107), and what the setters write: each is a write of one byte of W (`setByte`), and a setter of one bit is the write that
`bitTarget` names (`bitTarget_spec`). That no command writes the constant bits (R125) is read off the image that each command
leaves (`exec_keepsConst`). -/

namespace Sys2Proof.Machine

open Sys2Proof.Claims

/-! ## The codec by the numbers of R100 to R103 -/

/-- The HLSI bit of the side in effect is the one in W (R36). -/
@[simp] theorem sideBit_side (w : Image) : sideBit (side w) = injection w := by
  cases h : injection w <;> simp [side, h, sideBit]

theorem pllRaw_eq_pllOf (f : Int) (sd : Side) : pllRaw params f sd = pllOf f (sideBit sd) := by
  cases sd <;> rfl

theorem pllOK_iff_fits (f : Int) (sd : Side) : pllOK params f sd ↔ fits f (sideBit sd) := by
  rw [pllOK, pllRaw_eq_pllOf, pllMax_params, fits]

/-- On the HIGH side a frequency is too high for the PLL field, never too low (R102). -/
theorem not_fits_high_iff (f : Nat) : ¬ fits f true ↔ 133988632 ≤ f := by
  simp only [fits, pllOf, if_true]
  omega

/-- On the LOW side a 27-bit frequency is too low for the PLL field, never too high (R102). -/
theorem not_fits_low_iff (f : Freq) : ¬ fits f.toNat false ↔ f.toNat ≤ 220903 := by
  have width := f.isLt
  simp only [fits, pllOf, Bool.false_eq_true, if_false]
  omega

theorem not_fits_iff (f : Freq) (high : Bool) :
    ¬ fits f.toNat high ↔ if high then 133988632 ≤ f.toNat else f.toNat ≤ 220903 := by
  cases high
  · exact not_fits_low_iff f
  · exact not_fits_high_iff f.toNat

/-- Tuning leaves the PLL word of R100 under the side in W (R105). -/
theorem pllWord_tune_toNat {f : Int} {s : State} (h : fits f (injection s.w)) :
    ((pllWord (tune params f s).w).toNat : Int) = pllOf f (injection s.w) := by
  rw [← sideBit_side, ← pllOK_iff_fits] at h
  rw [tune_w, pllWord_putPll, pllFor_toNat params (by decide) f _ h, pllRaw_eq_pllOf, sideBit_side]

/-! ## SET_FREQ (R107) -/

theorem exec_setFreq_of_fits {f : Freq} {s : State} (h : fits f.toNat (injection s.w)) :
    exec (.setFreq f) s = .next (finish .ok (tune params f.toNat s)) :=
  if_pos ((pllOK_iff_fits _ _).mpr (by rwa [sideBit_side]))

theorem exec_setFreq_of_not_fits {f : Freq} {s : State} (h : ¬ fits f.toNat (injection s.w)) :
    exec (.setFreq f) s = .next (finish .rangeFault s) :=
  if_neg fun ok => h (by rwa [pllOK_iff_fits, sideBit_side] at ok)

/-- A SET_FREQ that ends with OK has tuned. -/
theorem exec_setFreq_ok {f : Freq} {s t : State} (h : exec (.setFreq f) s = .next t) (ok : t.res = 0#4) :
    fits f.toNat (injection s.w) ∧ t = finish .ok (tune params f.toNat s) := by
  by_cases fit : fits f.toNat (injection s.w)
  · rw [exec_setFreq_of_fits fit] at h
    cases h
    exact ⟨fit, rfl⟩
  · rw [exec_setFreq_of_not_fits fit] at h
    cases h
    exact nomatch ok

/-- SET_FREQ is refused exactly for a frequency whose PLL word does not fit (R102, R107). -/
theorem exec_setFreq_eq_rangeFault_iff (f : Freq) (s : State) :
    exec (.setFreq f) s = .next (finish .rangeFault s) ↔ ¬ fits f.toNat (injection s.w) := by
  refine ⟨fun h fit => ?_, exec_setFreq_of_not_fits⟩
  rw [exec_setFreq_of_fits fit] at h
  have code : resultCode .ok = resultCode .rangeFault := congrArg State.res (Host.Outcome.next.inj h)
  exact nomatch code

/-! ## Writing one byte of the image -/

/-- `W[j] <- x`; an image has no byte past 4. -/
def setByte (w : Image) (j : Nat) (x : Byte) : Image where
  b0 := if j = 0 then x else w.b0
  b1 := if j = 1 then x else w.b1
  b2 := if j = 2 then x else w.b2
  b3 := if j = 3 then x else w.b3
  b4 := if j = 4 then x else w.b4

/-- A byte write changes exactly that byte. -/
theorem byte_setByte {i : Nat} (hi : i < 5) (w : Image) (j : Nat) (x : Byte) :
    (setByte w j x).byte i = if j = i then x else w.byte i := by
  match i, hi with
  | 0, _ | 1, _ | 2, _ | 3, _ | 4, _ => rfl

theorem onlyBits_trans {may : Nat → Nat → Bool} {u v w : Image} (a : onlyBits may u v) (b : onlyBits may v w) :
    onlyBits may u w := fun j i hj hi h => (b j i hj hi h).trans (a j i hj hi h)

/-- A byte write changes only bits that may change when the byte keeps the others. -/
theorem onlyBits_setByte {may : Nat → Nat → Bool} {w : Image} {j : Nat} {x : Byte}
    (keeps : ∀ b, b < 8 → may j b = false → x.getLsbD b = (w.byte j).getLsbD b) : onlyBits may w (setByte w j x) := by
  intro i b hi hb h
  rw [byte_setByte hi]
  split
  next same =>
    subst same
    exact keeps b hb h
  next => rfl

/-- A field write keeps every bit outside the field. -/
theorem getLsbD_putField_outside {lo n b : Nat} (hb : b < 8) (out : b < lo ∨ lo + n ≤ b) (x : Byte) (v : BitVec n) :
    (putField x lo v).getLsbD b = x.getLsbD b := by
  rw [getLsbD_putField x lo v b hb, if_neg (by omega)]

/-- `tune` writes the PLL bits alone (R105). -/
theorem onlyBits_putPll (w : Image) (p : Pll) : onlyBits pllBits w (putPll w p) := by
  have high : onlyBits pllBits w (setByte w 0 (putField w.b0 0 (p.extractLsb' 8 6))) :=
    onlyBits_setByte fun b hb h => getLsbD_putField_outside hb (by simpa [pllBits] using h) _ _
  have low : onlyBits pllBits (setByte w 0 (putField w.b0 0 (p.extractLsb' 8 6))) (putPll w p) :=
    onlyBits_setByte (j := 1) fun b _ h => nomatch h
  exact onlyBits_trans high low

/-- SET_STOP_LEVEL writes the stop-level code alone (R111). -/
theorem onlyBits_putStopCode (w : Image) (c : StopCode) :
    onlyBits (fun j b => j == 2 && (b == 5 || b == 6)) w (putStopCode w c) :=
  onlyBits_setByte (j := 2) fun b hb h => getLsbD_putField_outside hb (by simp at h; omega) _ _

/-- The code of a level, as the number of R78. -/
theorem levelCode_toNat : ∀ lvl, (levelCode lvl).toNat = codeOf lvl := by decide

@[simp] theorem band_putBand (w : Image) (v : Bool) : band (putBand w v) = v := by simp [band, putBand]

/-! ## The setters of one bit (R108 to R124) -/

/-- `W[j][b] <- v`. -/
def setImageBit (w : Image) (j b : Nat) (v : Bool) : Image := setByte w j (putBit (w.byte j) b v)

theorem getLsbD_setImageBit {j b : Nat} (hj : j < 5) (hb : b < 8) (w : Image) (v : Bool) :
    ((setImageBit w j b v).byte j).getLsbD b = v := by
  rw [setImageBit, byte_setByte hj, if_pos rfl, getLsbD_putBit _ _ _ _ hb, if_pos rfl]

/-- A bit write keeps every other bit of the image. -/
theorem onlyBits_setImageBit {may : Nat → Nat → Bool} {j b : Nat} (h : may j b = true) (w : Image) (v : Bool) :
    onlyBits may w (setImageBit w j b v) := by
  refine onlyBits_setByte fun b' hb' h' => ?_
  have other : b' ≠ b := by
    rintro rfl
    exact absurd (h.symm.trans h') (by decide)
  rw [getLsbD_putBit _ _ _ _ hb', if_neg other]

/-- The bits that hold constants: XTAL, PLLREF and W[4][5:0] (10_state.md R22, R125). -/
def constBits (j b : Nat) : Bool := (j == 3 && b == 4) || (j == 4 && b != 6)

/-- What a setter of one bit does: it ends with OK on the image with the bit of `bitTarget` written, which is a bit of the
image and none of the constants. -/
theorem bitTarget_spec {i : Instr} {j b : Nat} {v : Bool} (h : bitTarget i = some (j, b, v)) :
    j < 5 ∧ b < 8 ∧ constBits j b = false ∧
      ∀ s, exec i s = .next (finish .ok { s with w := setImageBit s.w j b v }) := by
  cases i with
  | setFreq | setStopLevel | flush | readRaw | readDecode | optimize | setStation | searchStep | scanBegin | scanStep
  | presetNext | presetPrev | presetDelete => exact nomatch h
  | _ =>
    cases h
    exact ⟨by decide, by decide, by decide, fun _ => rfl⟩

/-- A setter of one bit completes, writes its bit and nothing else but res. -/
theorem exec_bitSetter {i : Instr} {j b : Nat} {v : Bool} (h : bitTarget i = some (j, b, v)) (s : State) :
    ∃ t, exec i s = .next t ∧ t = { s with w := t.w, res := 0#4 } ∧ (t.w.byte j).getLsbD b = v ∧
      onlyBits (fun j' b' => j' == j && b' == b) s.w t.w := by
  obtain ⟨hj, hb, -, run⟩ := bitTarget_spec h
  exact ⟨_, run s, rfl, getLsbD_setImageBit hj hb s.w v, onlyBits_setImageBit (by simp) s.w v⟩

/-! ## The constant bits (R22, R125) -/

/-- The image keeps its constant bits. -/
def KeepsConst (v w : Image) : Prop := onlyBits (fun j b => !constBits j b) v w

/-- The constant bits lie in bytes 3 and 4. -/
theorem KeepsConst.ofTail {v w : Image} (h3 : w.b3 = v.b3) (h4 : w.b4 = v.b4) : KeepsConst v w := by
  intro j b hj hb h
  match j, hj with
  | 0, _ | 1, _ | 2, _ => exact nomatch h
  | 3, _ => exact congrArg (BitVec.getLsbD · b) h3
  | 4, _ => exact congrArg (BitVec.getLsbD · b) h4

theorem KeepsConst.refl (w : Image) : KeepsConst w w := .ofTail rfl rfl

theorem KeepsConst.trans {u v w : Image} (a : KeepsConst u v) (b : KeepsConst v w) : KeepsConst u w := onlyBits_trans a b

theorem KeepsConst.xtal {v w : Image} (h : KeepsConst v w) : xtal w = xtal v := h 3 4 (by decide) (by decide) rfl

theorem KeepsConst.pllRef {v w : Image} (h : KeepsConst v w) : pllRef w = pllRef v := h 4 7 (by decide) (by decide) rfl

theorem KeepsConst.low {v w : Image} (h : KeepsConst v w) : getField w.b4 0 6 = getField v.b4 0 6 := by
  ext i hi
  have const : constBits 4 i = true := by
    have : i ≠ 6 := by omega
    simp [constBits, this]
  have bit : w.b4.getLsbD i = v.b4.getLsbD i := h 4 i (by decide) (by omega) (by simp [const])
  simpa [getField] using bit

/-- A tuned image keeps bytes 3 and 4 (43_search_fsm.md R182). -/
theorem KeepsConst.ofTuned {k : Config} {v w : Image} (h : ∃ g sd, w = tunedImage k g sd v) : KeepsConst v w := by
  obtain ⟨g, sd, rfl⟩ := h
  exact .ofTail rfl rfl

/-- So does the image of a station, unmuted before it is tuned (R185). -/
theorem KeepsConst.ofStation {k : Config} {v w : Image} (h : ∃ g sd, w = tunedImage k g sd (clearedImage v)) :
    KeepsConst v w := by
  obtain ⟨g, sd, rfl⟩ := h
  exact .ofTail rfl rfl

theorem readAndDecode_w (s : State) : (readAndDecode params s).2.w = s.w := by
  obtain ⟨_, reads, -⟩ := (readAndDecode_ends params (by decide) s).reads
  exact reads.w_eq

@[simp] theorem scanAdvance_w (s : State) : (scanAdvance params s).w = s.w := by
  obtain ⟨r, act, -, e⟩ := scanAdvance_eq s
  rw [e]
  rfl

section
variable {f : Int} {c : StopCode} {cap : Bool} {v : Image} {s : State} (hs : KeepsConst v s.w)
include hs

theorem setStation_keepsConst : KeepsConst v (setStation params f s).2.w := by
  obtain ⟨_, -, -, img⟩ := setStation_cases params (by decide) (by decide) f s
  exact hs.trans (.ofStation img)

theorem retuneCurrent_keepsConst : KeepsConst v (retuneCurrent params s).w := by
  rw [retuneCurrent, finish_w]
  exact setStation_keepsConst hs

theorem searchAccepted_keepsConst : KeepsConst v (searchAccepted params cap s).w := by
  obtain ⟨u, _, -, img, e⟩ := searchAccepted_cases params (by decide) (by decide) cap s
  have keeps := hs.trans (.ofStation img)
  obtain e | ⟨-, ⟨-, e⟩ | ⟨-, -, e⟩ | ⟨-, -, e⟩⟩ := e <;> rw [e] <;> exact keeps

theorem searchProbe_keepsConst : KeepsConst v (searchProbe params c cap s).w := by
  obtain ⟨u, _, -, img, e⟩ := searchProbe_cases params (by decide) (by decide) c cap s
  have keeps := hs.trans (.ofTuned img)
  obtain e | ⟨-, e | ⟨-, e⟩⟩ := e <;> rw [e]
  · exact keeps
  · exact keeps
  · exact searchAccepted_keepsConst keeps

theorem scanExamine_keepsConst : KeepsConst v (scanExamine params f s).w := by
  obtain ⟨u, _, -, img, e⟩ := scanExamine_cases params (by decide) (by decide) f s
  have keeps := hs.trans (.ofTuned img)
  obtain e | ⟨-, e | ⟨-, ⟨-, e⟩ | ⟨-, e⟩⟩⟩ := e <;> rw [e]
  · exact keeps
  · rwa [scanAdvance_w]
  · rwa [scanAdvance_w]
  · exact keeps

end

/-! ## Every command keeps the constant bits (R125) -/

theorem exec_setFreq_keepsConst {f : Freq} {s t : State} (h : exec (.setFreq f) s = .next t) : KeepsConst s.w t.w := by
  by_cases fit : fits f.toNat (injection s.w)
  · rw [exec_setFreq_of_fits fit] at h
    cases h
    exact .ofTail rfl rfl
  · rw [exec_setFreq_of_not_fits fit] at h
    cases h
    exact .refl s.w

theorem execReadRaw_keepsConst {s t : State} (h : execReadRaw s = .next t) : KeepsConst s.w t.w := by
  obtain ⟨-, e⟩ | ⟨m, -, e⟩ := readRaw_cases params s <;> rw [execReadRaw, readRawWith, e] at h <;> cases h <;>
    exact .refl s.w

theorem execReadDecode_keepsConst {s t : State} (h : execReadDecode s = .next t) : KeepsConst s.w t.w := by
  cases h
  rw [finish_w, readAndDecode_w]
  exact .refl s.w

theorem execOptimize_keepsConst {f : Freq} {s t : State} (h : execOptimize f s = .next t) : KeepsConst s.w t.w := by
  unfold execOptimize optimizeWith at h
  split at h
  · obtain ⟨_, u, sd, e, -, -, -, img⟩ | ⟨_, u, e, -, img⟩ :=
      optimize_cases params (by decide) (by decide) f.toNat s <;> rw [e] at h <;> cases h
    · exact .ofTuned ⟨_, _, img⟩
    · exact .ofTuned (img.elim (fun img => ⟨_, _, img⟩) fun img => ⟨_, _, img⟩)
  · cases h
    exact .refl s.w

theorem execSetStation_keepsConst {f : Freq} {s t : State} (h : execSetStation f s = .next t) :
    KeepsConst s.w t.w := by
  unfold execSetStation setStationWith at h
  split at h <;> cases h
  · rw [finish_w]
    exact setStation_keepsConst (.refl s.w)
  · exact .refl s.w

theorem execSearchStep_keepsConst {up : Bool} {lvl : Level} {cap : Bool} {s t : State}
    (h : execSearchStep up lvl cap s = .next t) : KeepsConst s.w t.w := by
  have recorded : KeepsConst s.w (recordSearch up (levelCode lvl) s).w := .ofTail rfl rfl
  unfold execSearchStep searchStepWith at h
  split at h
  · cases h
    exact recorded
  · split at h <;> cases h
    · exact searchProbe_keepsConst recorded
    · exact .refl s.w

theorem execScanStep_keepsConst {s t : State} (h : execScanStep s = .next t) : KeepsConst s.w t.w := by
  unfold execScanStep scanStepWith at h
  split at h
  · cases h
    exact .refl s.w
  split at h
  · cases h
    exact .refl s.w
  split at h <;> cases h
  · exact scanExamine_keepsConst (.refl s.w)
  · exact .refl s.w

theorem gotoPreset_keepsConst {n : Nat} {s t : State} (h : gotoPreset params n s = .next t) : KeepsConst s.w t.w := by
  unfold gotoPreset at h
  split at h <;> cases h <;> exact .ofTail rfl rfl

theorem execPresetNext_keepsConst {s t : State} (h : execPresetNext s = .next t) : KeepsConst s.w t.w := by
  unfold execPresetNext presetNextWith at h
  split at h
  · cases h
    exact .refl s.w
  · exact gotoPreset_keepsConst h

theorem execPresetPrev_keepsConst {s t : State} (h : execPresetPrev s = .next t) : KeepsConst s.w t.w := by
  unfold execPresetPrev presetPrevWith at h
  split at h
  · cases h
    exact .refl s.w
  · exact gotoPreset_keepsConst h

theorem execPresetDelete_keepsConst {s t : State} (h : execPresetDelete s = .next t) : KeepsConst s.w t.w := by
  unfold execPresetDelete presetDeleteWith at h
  split at h
  · cases h
    exact .refl s.w
  dsimp only at h
  split at h
  · cases h
    exact .refl s.w
  split at h <;> cases h
  · exact retuneCurrent_keepsConst (.refl s.w)
  · exact .refl s.w

/-- A setter of one bit writes a bit that is no constant; the other commands write W as their procedures do. -/
theorem exec_keepsConst {i : Instr} {s t : State} (h : exec i s = .next t) : KeepsConst s.w t.w := by
  cases target : bitTarget i with
  | some x =>
    obtain ⟨j, b, v⟩ := x
    obtain ⟨-, -, free, run⟩ := bitTarget_spec target
    rw [run s] at h
    cases h
    exact onlyBits_setImageBit (by simp [free]) s.w v
  | none =>
    cases i with
    | setFreq f => exact exec_setFreq_keepsConst h
    | setStopLevel | flush | scanBegin =>
      cases h
      exact .ofTail rfl rfl
    | readRaw => exact execReadRaw_keepsConst h
    | readDecode => exact execReadDecode_keepsConst h
    | optimize f => exact execOptimize_keepsConst h
    | setStation f => exact execSetStation_keepsConst h
    | searchStep up lvl cap => exact execSearchStep_keepsConst h
    | scanStep => exact execScanStep_keepsConst h
    | presetNext => exact execPresetNext_keepsConst h
    | presetPrev => exact execPresetPrev_keepsConst h
    | presetDelete => exact execPresetDelete_keepsConst h
    | _ => exact nomatch target

end Sys2Proof.Machine

namespace Sys2Proof

open Machine Claims

/-- Settles O10: the PLL value is monotone, so on each side only one edge lies among the 27-bit frequencies. -/
theorem pllRangeEdges : Obligations.PllRangeEdges := by
  intro f s
  refine ⟨?_, ?_, ?_⟩
  · rw [pllOK_iff_fits]
    exact not_fits_high_iff f.toNat
  · rw [pllOK_iff_fits]
    exact not_fits_low_iff f
  · exact (exec_setFreq_eq_rangeFault_iff f s).trans (not_fits_iff f _)

/-- Settles O11: the PLL value that fits is rounded half up, so it lies above by at most half a step and below by less. -/
theorem pllRoundTripBound : Obligations.PllRoundTripBound := by
  intro f sd ok
  rw [freqOf_params, pllFor_toNat params (by decide) f sd ok, pllRaw_params]
  omega

/-- Settles O14, by the two answers of SET_FREQ. -/
theorem setFreqWritesThePllWord : Obligations.SetFreqWritesThePllWord := fun _ _ =>
  ⟨fun fit => ⟨_, exec_setFreq_of_fits fit, rfl, pllWord_tune_toNat fit, onlyBits_putPll _ _⟩, exec_setFreq_of_not_fits⟩

/-- Settles O15: a setter of one bit writes its bit alone, in every byte. -/
theorem bitSettersOfBytesZeroAndTwo : Obligations.BitSettersOfBytesZeroAndTwo :=
  fun _ _ _ _ target _ => exec_bitSetter target

/-- Settles O16, by the same lemma over the setters of one bit. -/
theorem bitSettersOfBytesThreeAndFour : Obligations.BitSettersOfBytesThreeAndFour :=
  fun _ _ _ _ target _ => exec_bitSetter target

/-- Settles O19: SET_INJECTION keeps the PLL word that a completed SET_FREQ left. -/
theorem injectionDoesNotReencode : Obligations.InjectionDoesNotReencode := by
  intro f v s t u hf ok hu
  obtain ⟨fit, rfl⟩ := exec_setFreq_ok hf ok
  cases hu
  refine ⟨?_, injection_putInjection _ v⟩
  rw [← pllWord_tune_toNat fit]
  rfl

/-- Settles O54, by what every command keeps of W. -/
theorem noCommandWritesTheConstantBits : Obligations.NoCommandWritesTheConstantBits := by
  refine ⟨by decide, fun i s t h => ?_⟩
  have keeps := exec_keepsConst h
  exact ⟨keeps.xtal, keeps.pllRef, keeps.low⟩

/-- Settles O17: the code of the level is the field that is written. -/
theorem setStopLevelWritesTheCode : Obligations.SetStopLevelWritesTheCode := by
  intro lvl s
  refine ⟨_, rfl, rfl, ?_, onlyBits_putStopCode _ _⟩
  rw [finish_w, stopCode_putStopCode, levelCode_toNat]

/-- Settles O18: the bounds follow the band bit, which is all that SET_BAND writes of the state beside res. -/
theorem setBandMovesBothBounds : Obligations.SetBandMovesBothBounds := by
  intro v s
  refine ⟨_, rfl, ?_, rfl, rfl, rfl, rfl, rfl, rfl⟩
  rw [finish_w, bounds_params, band_putBand]

end Sys2Proof

/-! SUPPORT. The bus commands (41_bus_status.md R140 to R155). How FLUSH and READ_RAW end is said exactly. READ_DECODE is
read off `ReadEnds`, to which this adds the status by the numbers of R150, the retries that lined-up answers cause, and the
history of a COMM_ERROR: a frame between timeouts starts the count again (R153). -/

namespace Sys2Proof.Machine

open Sys2Proof.Claims

/-! ## FLUSH and READ_RAW (R140 to R143) -/

/-- A flush records its two events and writes no state of the block (R140). -/
theorem flush_eq (k : Config) (s : State) :
    flush k s = { s with events := s.events ++ [.write k.chipAddr s.w, .settle k.settleMs] } := by
  rw [← flush_events]
  rfl

theorem readRaw_of_bytes (k : Config) {s : State} {m : Image} (h : nextAnswer s = .bytes m) :
    readRaw k s = (true, takeFrame m (busRead k s)) := by
  rw [readRaw, h]

theorem readRaw_of_timeout (k : Config) {s : State} (h : nextAnswer s = .timeout) :
    readRaw k s = (false, takeTimeout (busRead k s)) := by
  rw [readRaw, h]

theorem nextAnswer_of_cons {s : State} {x : ReadAnswer} {rest : List ReadAnswer} (h : s.answers = x :: rest) :
    nextAnswer s = x := by
  rw [nextAnswer, h]

/-! ## The status a frame decodes to (R146, R150) -/

/-- `freqOf` is R103 with its numbers. -/
theorem freqOf_eq_hertzOf (p : Pll) (sd : Side) : freqOf params p sd = hertzOf (p.toNat : Int) (sideBit sd) := by
  cases sd <;> rfl

/-- The decoded frequency of every PLL word fits S.freq (R33). -/
theorem decodedStatus_freq_toInt (sd : Side) (m : Image) (old : Status) :
    (decodedStatus params sd m old).freq.toInt = hertzOf ((pllWord m).toNat : Int) (sideBit sd) := by
  have width := (pllWord m).isLt
  rw [decodedStatus, rdPll_params, freqOf_eq_hertzOf, hertzOf]
  apply BitVec.toInt_ofInt_eq_self (by decide) <;> split <;> omega

theorem decodedStatus_decodesTo (w m : Image) (old : Status) :
    decodesTo (decodedStatus params (side w) m old) m (injection w) := by
  refine ⟨rfl, rfl, rfl, rfl, rdIfc_toNat m, rdAdc_toNat m, ?_⟩
  rw [decodedStatus_freq_toInt, sideBit_side, pllWord_toNat]

/-- The two sides decode one PLL word to frequencies 2 × F_IF_HZ apart (R148). -/
theorem hertzOf_low (pll : Int) : hertzOf pll false = hertzOf pll true + 450000 := by
  simp only [hertzOf, if_true, Bool.false_eq_true, if_false]
  omega

/-! ## How READ_DECODE ends (R152) -/

theorem resultCode_readResult_inj {r r' : ReadResult} :
    resultCode (readResult r) = resultCode (readResult r') ↔ r = r' := by
  cases r <;> cases r' <;> decide

theorem resultCode_readResult (r : ReadResult) :
    resultCode (readResult r) = 0#4 ∨ resultCode (readResult r) = 2#4 ∨ resultCode (readResult r) = 3#4 := by
  cases r <;> decide

theorem exec_readDecode_of {s u : State} {r : ReadResult} (h : readAndDecode params s = (r, u)) :
    exec .readDecode s = .next (finish (readResult r) u) := by
  rw [exec, execReadDecode, readDecodeWith, h]

/-- What a READ_DECODE that ended with the result code of `r` has done. -/
theorem exec_readDecode_ends {s t : State} (r : ReadResult) (h : exec .readDecode s = .next t)
    (hr : t.res = resultCode (readResult r)) : ∃ u, t = finish (readResult r) u ∧ ReadEnds params 5 s r u := by
  cases h
  obtain rfl := resultCode_readResult_inj.mp hr
  exact ⟨_, rfl, readAndDecode_ends params (by decide) s⟩

/-- An OK has decoded the frame in Rd under the side in W (R146, R152). -/
theorem exec_readDecode_ok {s t : State} (h : exec .readDecode s = .next t) (ok : t.res = 0#4) :
    settled t.rd ∧ t.rdValid = true ∧ decodesTo t.st t.rd (injection s.w) ∧ t.st.readTimeout = false := by
  obtain ⟨u, rfl, ends⟩ := exec_readDecode_ends .ok h ok
  obtain ⟨pll, valid, st⟩ := ends.ok rfl
  rw [rdPll_params] at pll
  rw [finish_st, st]
  exact ⟨pll, valid, decodedStatus_decodesTo .., rfl⟩

theorem exec_readDecode_settled {s : State} {m : Image} {rest : List ReadAnswer} (ha : s.answers = .bytes m :: rest)
    (hm : settled m) : exec .readDecode s = .next (finish .ok (settledRead params m s)) :=
  exec_readDecode_of (readAndDecode_settled params (by decide) (by decide) m s (nextAnswer_of_cons ha)
    (by rwa [rdPll_params]))

theorem ReadsOnly.busFrame {k : Config} {s u : State} {h : List BusEvent} (a : ReadsOnly k s u h) (r : Result) :
    busFrame s (finish r u) := by
  rw [Claims.busFrame, a.same]
  rfl

/-! ## Retries on lined-up answers (R151) -/

section
variable {k : Config}

@[simp] theorem silentReads_answers (n : Nat) (s : State) : (silentReads k n s).answers = s.answers.drop n := by
  induction n generalizing s with
  | zero => rfl
  | succ n ih => simp [silentReads, ih]

@[simp] theorem reads_silentReads (n : Nat) (s : State) :
    reads (silentReads k n s).events = reads s.events + n := by
  induction n generalizing s with
  | zero => rfl
  | succ n ih =>
    rw [silentReads, ih]
    simp [Nat.add_assoc, Nat.add_comm 1]

@[simp] theorem unsettledReads_answers (z : Image) (n : Nat) (s : State) :
    (unsettledReads k z n s).answers = s.answers.drop n := by
  induction n generalizing s with
  | zero => rfl
  | succ n ih => simp [unsettledReads, ih]

@[simp] theorem reads_unsettledReads (z : Image) (n : Nat) (s : State) :
    reads (unsettledReads k z n s).events = reads s.events + n := by
  induction n generalizing s with
  | zero => rfl
  | succ n ih =>
    rw [unsettledReads, ih]
    simp [Nat.add_assoc, Nat.add_comm 1]

theorem readGuard_of_bytes {n : Nat} {s : State} {m : Image} (h : nextAnswer s = .bytes m) :
    readGuard k (n + 1) s = (true, takeFrame m (busRead k s)) := by
  simp [readGuard, readRaw_of_bytes k h]

/-- The timeout guard takes a frame that fewer timeouts precede than it has attempts. -/
theorem readGuard_retries {a n : Nat} (ha : a < n) {m : Image} {rest : List ReadAnswer} {s : State}
    (h : s.answers = List.replicate a .timeout ++ .bytes m :: rest) :
    readGuard k n s = (true, takeFrame m (busRead k (silentReads k a s))) := by
  obtain ⟨n, rfl⟩ := Nat.exists_eq_add_of_lt ha
  clear ha
  induction a generalizing s with
  | zero => exact readGuard_of_bytes (nextAnswer_of_cons h)
  | succ a ih =>
    have tail : (takeTimeout (busRead k s)).answers = List.replicate a .timeout ++ .bytes m :: rest :=
      congrArg List.tail h
    rw [readGuard, readRaw_of_timeout k (nextAnswer_of_cons h), silentReads, Nat.add_right_comm]
    exact ih tail

/-- A zero-PLL frame is not decoded, and another round of the PLL-zero guard begins (R147). -/
theorem zeroGuard_of_zero (hk : 0 < k.readAttempts) {n : Nat} {s : State} {z : Image} (hz : rdPll k z = 0#14)
    (h : nextAnswer s = .bytes z) : zeroGuard k (n + 1) s = zeroGuard k n (takeFrame z (busRead k s)) := by
  have guard : readGuard k k.readAttempts s = (true, takeFrame z (busRead k s)) := by
    rw [← Nat.sub_add_cancel hk]
    exact readGuard_of_bytes h
  have decode : decodeStatus k (takeFrame z (busRead k s)) = (false, takeFrame z (busRead k s)) := if_pos hz
  simp [zeroGuard, guard, decode]

/-- The PLL-zero guard decodes a settled frame that zero-PLL frames and then timeouts precede, as long as neither guard
runs out of attempts. -/
theorem zeroGuard_retries {m z : Image} {a b n : Nat} {rest : List ReadAnswer} {s : State} (ha : a < k.readAttempts)
    (hb : b < n) (hz : rdPll k z = 0#14) (hm : rdPll k m ≠ 0#14)
    (h : s.answers = List.replicate b (.bytes z) ++ (List.replicate a .timeout ++ .bytes m :: rest)) :
    zeroGuard k n s = (.ok, settledRead k m (silentReads k a (unsettledReads k z b s))) := by
  obtain ⟨n, rfl⟩ := Nat.exists_eq_add_of_lt hb
  clear hb
  induction b generalizing s with
  | zero =>
    have decode : decodeStatus k (takeFrame m (busRead k (silentReads k a s))) =
        (true, settledRead k m (silentReads k a s)) := if_neg hm
    rw [zeroGuard_succ, readGuard_retries ha h, unsettledReads]
    simp only [decode]
  | succ b ih =>
    have tail : (takeFrame z (busRead k s)).answers =
        List.replicate b (.bytes z) ++ (List.replicate a .timeout ++ .bytes m :: rest) := congrArg List.tail h
    rw [zeroGuard_of_zero (Nat.zero_lt_of_lt ha) hz (nextAnswer_of_cons h), unsettledReads, Nat.add_right_comm]
    exact ih tail

end

/-! ## Five timeouts in a row (R153) -/

section
variable {α : Type} {x y : α} (hy : y ≠ x) {n j : Nat} (hj : j < n) {l : List α}
include hy hj

/-- A run of `n` equal elements does not start a list whose element after `j` of them differs. -/
theorem not_replicate_prefix : ¬ List.replicate n x <+: List.replicate j x ++ y :: l := by
  intro pre
  have after_j := pre.getElem (i := j) (by simpa using hj)
  exact hy (by simpa using after_j.symm)

/-- A run of `n` equal elements does not reach over a different one that fewer than `n` of them precede. -/
theorem replicate_infix_iff : List.replicate n x <:+: List.replicate j x ++ y :: l ↔ List.replicate n x <:+: l := by
  induction j with
  | zero => exact List.infix_cons_iff.trans (or_iff_right (not_replicate_prefix hy hj))
  | succ j ih => exact List.infix_cons_iff.trans ((or_iff_right (not_replicate_prefix hy hj)).trans (ih (by omega)))

end

/-- The run of timeouts that exhausts the timeout guard. -/
abbrev timeoutRun (k : Config) : List BusEvent :=
  List.replicate k.readAttempts (.read k.chipAddr k.imageBytes .timeout)

/-- The PLL-zero guard ends in COMM_ERROR exactly when its reads hold a run of timeouts that exhausts the timeout guard. -/
theorem zeroGuard_commError_iff (k : Config) (hk : 0 < k.readAttempts) (n : Nat) (s : State) :
    ∃ h, (zeroGuard k n s).2.events = s.events ++ h ∧ ((zeroGuard k n s).1 = .commError ↔ timeoutRun k <:+: h) := by
  induction n generalizing s with
  | zero => exact ⟨[], by simp [zeroGuard], by simp [zeroGuard, timeoutRun]; omega⟩
  | succ n ih =>
    obtain ⟨t, g, m, guard, ro, -, short, -, -, -, shape⟩ | ⟨t, guard, ro, -⟩ := readGuard_cases k k.readAttempts s
    · have skip (l : List BusEvent) : timeoutRun k <:+: g ++ l ↔ timeoutRun k <:+: l := by
        rw [shape, List.append_assoc]
        exact replicate_infix_iff (by simp) (by omega)
      obtain ⟨-, decode⟩ | ⟨-, decode⟩ := decodeStatus_cases k t <;> rw [zeroGuard_succ, guard] <;> simp only [decode]
      · obtain ⟨l, events, run⟩ := ih t
        exact ⟨g ++ l, by rw [events, ro.events, List.append_assoc], run.trans (skip l).symm⟩
      · have run := skip []
        rw [List.append_nil] at run
        exact ⟨g, ro.events, by simp [run, timeoutRun]; omega⟩
    · rw [zeroGuard_succ, guard]
      exact ⟨_, ro.events, by simp⟩

end Sys2Proof.Machine

namespace Sys2Proof

open Machine Claims

/-- Settles O22: the two guards give the frame and the bounds, and only an exhausted timeout guard records five timeouts in
a row. -/
theorem readDecodeCompletesWithinItsBounds : Obligations.ReadDecodeCompletesWithinItsBounds := by
  intro s
  obtain ⟨h, ro, most, least⟩ := (readAndDecode_ends params (by decide) s).reads
  obtain ⟨g, events, run⟩ := zeroGuard_commError_iff params (by decide) params.zeroAttempts s
  obtain rfl : h = g := List.append_cancel_left (ro.events.symm.trans events)
  exact ⟨_, h, rfl, ro.busFrame _, ro.w_eq, ro.events, least (by decide), most, ro.reads, resultCode_readResult _,
    (resultCode_readResult_inj (r' := .commError)).trans run⟩

/-- Settles O23: lined-up retries end in OK, and an OK has decoded the frame it took under the side in W. -/
theorem readDecodeDecodesTheFrame : Obligations.ReadDecodeDecodesTheFrame := by
  refine ⟨fun s m z a b rest ha hb hz hm answers => ?_, fun s t => exec_readDecode_ok⟩
  rw [List.append_assoc] at answers
  have run := exec_readDecode_of (zeroGuard_retries (Nat.lt_succ_of_le ha) (Nat.lt_succ_of_le hb)
    (by rw [rdPll_params]; exact not_not.mp hz) (by rwa [rdPll_params]) answers)
  obtain ⟨-, -, decoded, readTimeout⟩ := exec_readDecode_ok run rfl
  refine ⟨_, run, rfl, rfl, decoded, readTimeout, ?_, ?_⟩
  · simp [settledRead]
    omega
  · simp [settledRead, answers]

/-- Settles O24, by how READ_DECODE ends in COMM_ERROR. -/
theorem commErrorKeepsTheStaleStatus : Obligations.CommErrorKeepsTheStaleStatus := by
  intro s t h hr
  obtain ⟨u, rfl, ends⟩ := exec_readDecode_ends .commError h hr
  simpa using ends.commError rfl

/-- Settles O25, by how READ_DECODE ends in NOT_READY. -/
theorem notReadyKeepsTheStaleStatus : Obligations.NotReadyKeepsTheStaleStatus := by
  intro s t h hr
  obtain ⟨u, rfl, ends⟩ := exec_readDecode_ends .notReady h hr
  obtain ⟨-, none⟩ | ⟨pll, valid, st⟩ := ends.notReady rfl
  · exact nomatch none
  · rw [rdPll_params] at pll
    exact ⟨st, pll, valid⟩

/-- Settles O26: both runs take the frame, and only the side they decode it under differs. -/
theorem wrongSideDecodesFourHundredFiftyKilohertzOff : Obligations.WrongSideDecodesFourHundredFiftyKilohertzOff := by
  intro s t u m rest v answers hm high low ht hu
  rw [exec_readDecode_settled answers hm] at ht
  rw [exec_readDecode_settled (s := { s with w := v }) answers hm] at hu
  cases ht
  cases hu
  simp only [finish_st, settledRead, decodedStatus_freq_toInt, sideBit_side, high, low, hertzOf_low]

/-- Settles O20, by what a flush records. -/
theorem flushSendsTheWriteImage : Obligations.FlushSendsTheWriteImage := by
  intro s
  rw [exec, execFlush, flushWith, flush_eq]
  rfl

/-- Settles O21, by the two answers to one read attempt. -/
theorem readRawTakesAFrameOrTimesOut : Obligations.ReadRawTakesAFrameOrTimesOut := by
  intro s
  refine ⟨fun m h => ?_, fun h => ?_⟩
  · rw [exec, execReadRaw, readRawWith, readRaw_of_bytes params h, busRead, h]
    rfl
  · rw [exec, execReadRaw, readRawWith, readRaw_of_timeout params h, busRead, h]
    rfl

end Sys2Proof

/-! SUPPORT. The optimizer command (42_optimizer.md R170 to R175). A probe tunes, flushes and reads; how it ends on answers
that are lined up is said once per kind of answer (settled in Laws/Frames, unsettled and silent here), and OPTIMIZE is read
off its two probes. -/

namespace Sys2Proof.Machine

open Sys2Proof.Claims

/-! ## The tunable range (R171) -/

/-- Both bands lie inside the tunable range. -/
theorem inTunableRange_of_band {b : Bool} {f : Int} (lo : minHz b ≤ f) (hi : f ≤ maxHz b) : inTunableRange f := by
  cases b <;> exact ⟨le_trans (by decide) lo, le_trans hi (by decide)⟩

/-! ## The image of a probe (R170, 43_search_fsm.md R182) -/

/-- A tune to a frequency whose PLL value fits commits the image to it. -/
theorem committed_tunedImage {f : Int} {sd : Side} (h : pllOK params f sd) (w : Image) :
    committed (tunedImage params f sd w) f (sideBit sd) := by
  refine ⟨injection_tunedImage .., ?_⟩
  rw [pllWord_tunedImage, pllFor_toNat params (by decide) f sd h, pllRaw_eq_pllOf]

theorem onlyBits_mono {may may' : Nat → Nat → Bool} {v w : Image} (h : onlyBits may v w)
    (le : ∀ j b, may' j b = false → may j b = false) : onlyBits may' v w :=
  fun j b hj hb out => h j b hj hb (le j b out)

/-- A commit writes the side bit, then the PLL bits. -/
theorem onlyBits_tunedImage (k : Config) (f : Int) (sd : Side) (w : Image) :
    onlyBits tuneBits w (tunedImage k f sd w) := by
  have sideWritten : onlyBits tuneBits w (putInjection w (sideBit sd)) :=
    onlyBits_setImageBit (j := 2) (b := 4) (by decide) w (sideBit sd)
  refine onlyBits_trans sideWritten (onlyBits_mono (onlyBits_putPll _ _) fun j b out => ?_)
  exact (Bool.or_eq_false_iff.mp out).1

/-! ## How a probe ends on lined-up answers -/

/-- The status after a tune whose read gave a settled frame (41_bus_status.md R146, R150). -/
theorem settledTune_decodesTo (f : Int) (sd : Side) (m : Image) (s : State) :
    decodesTo (settledTune params f sd m s).st m (sideBit sd) := by
  have decoded := decodedStatus_decodesTo (tunedImage params f sd s.w) m { s.st with readTimeout := false }
  rwa [side_tunedImage, injection_tunedImage, ← settledTune_st] at decoded

/-- The level a settled probe leaves in S.adc (R172). -/
theorem settledTune_adc_toNat (f : Int) (sd : Side) (m : Image) (s : State) :
    (settledTune params f sd m s).st.adc.toNat = levelOf m := by
  rw [settledTune_st]
  exact rdAdc_toNat m

/-- Timeouts in a row are recorded and flagged, and leave Rd (41_bus_status.md R142). -/
theorem silentReads_ends {k : Config} {n : Nat} (hn : 0 < n) {rest : List ReadAnswer} {s : State}
    (ha : s.answers = List.replicate n .timeout ++ rest) :
    ReadsOnly k s (silentReads k n s) (List.replicate n (.read k.chipAddr k.imageBytes .timeout)) ∧
      (silentReads k n s).rd = s.rd ∧ (silentReads k n s).st = { s.st with readTimeout := true } := by
  obtain ⟨t, _, _, guard, -⟩ | ⟨t, guard, ro, rd, -, st⟩ := readGuard_cases k n s <;>
    rw [readGuard_silent k n rest s ha] at guard <;> cases guard
  rw [if_neg (by omega)] at st
  exact ⟨ro, rd, st⟩

section
variable {k : Config} (hz : 0 < k.zeroAttempts) (f : Int) (sd : Side) {rest : List ReadAnswer} {s : State}
include hz

/-- A tune whose reads all give frames with a zero PLL word is NOT_READY and decodes nothing (41_bus_status.md R155). -/
theorem tuneAndRead_unsettled (hk : 0 < k.readAttempts) {z : Image} (zero : rdPll k z = 0#14)
    (ha : s.answers = List.replicate k.zeroAttempts (.bytes z) ++ rest) :
    ∃ t, tuneAndRead k f sd s = (.notReady, t) ∧ t.st = { s.st with readTimeout := false } ∧ t.answers = rest := by
  have run : tuneAndRead k f sd s = (.notReady, unsettledReads k z k.zeroAttempts (flush k (commit k f sd s))) :=
    zeroGuard_unsettled k hk z zero _ rest _ ha
  obtain ⟨-, -, ends⟩ := tuneAndRead_cases k hk hz f sd s
  rw [run] at ends
  obtain ⟨-, none⟩ | ⟨-, -, st⟩ := ends.notReady rfl
  · omega
  · exact ⟨_, run, st, by simp [ha]⟩

/-- A tune whose reads all time out is a COMM_ERROR after one exhausted timeout guard (41_bus_status.md R153, R154). -/
theorem tuneAndRead_silent (hk : 0 < k.readAttempts)
    (ha : s.answers = List.replicate k.readAttempts .timeout ++ rest) :
    ∃ t, tuneAndRead k f sd s = (.commError, t) ∧
      ReadsOnly k (flush k { s with w := tunedImage k f sd s.w }) t (timeoutRun k) ∧ t.rd = s.rd ∧
      t.st = { s.st with readTimeout := true } := by
  rw [tuneAndRead, commit_eq]
  exact ⟨_, readAndDecode_silent k hz rest _ ha, silentReads_ends hk ha⟩

end

section
variable (f : Int) (sd : Side) {m : Image} {rest : List ReadAnswer} {s : State}

/-- One settled frame ends a probe with OK. -/
theorem probe_of_settled (hm : settled m) (ha : s.answers = .bytes m :: rest) :
    tuneAndRead params f sd s = (.ok, settledTune params f sd m s) :=
  tuneAndRead_settled params (by decide) (by decide) f sd m rest s ha (by rwa [rdPll_params])

/-- Five frames that are not settled end a probe with NOT_READY and leave the decoded status. -/
theorem probe_of_unsettled (hm : ¬ settled m) (ha : s.answers = List.replicate 5 (.bytes m) ++ rest) :
    ∃ t, tuneAndRead params f sd s = (.notReady, t) ∧ t.st = { s.st with readTimeout := false } ∧ t.answers = rest :=
  tuneAndRead_unsettled (by decide) f sd (by decide) (by rw [rdPll_params]; exact not_not.mp hm) ha

end

/-! ## OPTIMIZE by its two probes (R170, R173, R174) -/

/-- The chosen side is HIGH exactly when the first level is the smaller (R174). -/
theorem sideBit_choose (lh ll : Adc) : sideBit (choose lh ll) = decide (lh.toNat < ll.toNat) := by
  by_cases h : lh.toNat < ll.toNat <;> simp [choose, h, sideBit]

/-- The optimizer compares the levels that two probes leave, each OK or NOT_READY (R170, R172). -/
theorem optimize_of_probes {k : Config} {f : Int} {s t u : State} {r r' : ReadResult}
    (probeHigh : tuneAndRead k (f + k.probeOffsetHz) .high s = (r, t)) (hr : r ≠ .commError)
    (probeLow : tuneAndRead k (f - k.probeOffsetHz) .low t = (r', u)) (hr' : r' ≠ .commError) :
    optimize k f s = (some (choose t.st.adc u.st.adc), u) := by
  rw [optimize, probeHigh]
  cases r with
  | commError => exact absurd rfl hr
  | ok | notReady => simp only [probeLow]

/-- A COMM_ERROR in the first probe ends the optimizer there (R170). -/
theorem optimize_of_commError {k : Config} {f : Int} {s t : State}
    (probeHigh : tuneAndRead k (f + k.probeOffsetHz) .high s = (.commError, t)) : optimize k f s = (none, t) := by
  rw [optimize, probeHigh]

section
variable {f : Freq} {s t : State} (hf : inTunableRange f.toNat)
include hf

theorem exec_optimize_of_chooses {sd : Side} (h : optimize params f.toNat s = (some sd, t)) :
    exec (.optimize f) s = .next (finish .ok { t with resSide := sideBit sd }) := by
  rw [exec, execOptimize, optimizeWith, if_pos ((tunable_params _).mpr hf), h]

theorem exec_optimize_of_commError (h : optimize params f.toNat s = (none, t)) :
    exec (.optimize f) s = .next (finish .commError t) := by
  rw [exec, execOptimize, optimizeWith, if_pos ((tunable_params _).mpr hf), h]

/-- OPTIMIZE on two probes, each OK or NOT_READY. -/
theorem exec_optimize_of_probes {u : State} {r r' : ReadResult}
    (probeHigh : tuneAndRead params (f.toNat + 450000) .high s = (r, t)) (hr : r ≠ .commError)
    (probeLow : tuneAndRead params (f.toNat - 450000) .low t = (r', u)) (hr' : r' ≠ .commError) :
    exec (.optimize f) s = .next (finish .ok { u with resSide := decide (t.st.adc.toNat < u.st.adc.toNat) }) := by
  rw [exec_optimize_of_chooses hf (optimize_of_probes probeHigh hr probeLow hr'), sideBit_choose]

end

/-- Of the registers that a tuning procedure leaves alone, the end of a command writes res. -/
theorem Tunes.busFrame {k : Config} {n : Nat} {s u : State} {h : List BusEvent} (a : Tunes k n s u h) (r : Result) :
    busFrame s (finish r u) := by
  rw [Claims.busFrame, a.same]
  rfl

end Sys2Proof.Machine

namespace Sys2Proof

open Machine Claims

/-- Settles O12: the conditions of R171 bound the frequency on both sides, past the bounds of either band. -/
theorem tunableIsOneInterval : Obligations.TunableIsOneInterval :=
  ⟨tunable_params, fun _ f lo hi => (tunable_params f).mpr (inTunableRange_of_band lo hi)⟩

/-- Settles O27: both probes are settled tunes, and the optimizer compares the levels they decode. -/
theorem optimizeChoosesTheWeakerProbe : Obligations.OptimizeChoosesTheWeakerProbe := by
  intro f s m1 m2 rest hf answers h1 h2
  obtain ⟨fitsHigh, fitsLow, -⟩ := (tunable_params f.toNat).mpr hf
  have run := optimize_settled params (by decide) (by decide) f.toNat m1 m2 rest s answers
    (by rwa [rdPll_params]) (by rwa [rdPll_params])
  refine ⟨_, tunedImage params (f.toNat + 450000) .high s.w, exec_optimize_of_chooses hf run, rfl, ?_,
    committed_tunedImage fitsHigh _, committed_tunedImage fitsLow _, ?_, rfl, settledTune_decodesTo .., ?_⟩
  · rw [finish_resSide, sideBit_choose, rdAdc_toNat, rdAdc_toNat]
    rfl
  · have tail : (settledTune params (f.toNat + params.probeOffsetHz) .high m1 s).answers = .bytes m2 :: rest := by
      rw [settledTune_answers, answers, List.tail_cons]
    rw [finish_events]
    exact (settledTune_events _ _ _ _ _ _ tail).trans
      (congrArg (· ++ _) (settledTune_events _ _ _ _ _ _ answers))
  · simp [answers]

/-- Settles O28: the optimizer tunes twice or ends at a COMM_ERROR, and a tune writes the tuning bits of W alone. -/
theorem optimizeFrame : Obligations.OptimizeFrame := by
  intro f s hf
  obtain ⟨-, fitsLow, -⟩ := (tunable_params f.toNat).mpr hf
  obtain ⟨_, u, sd, run, tunes, -, -, img⟩ | ⟨_, u, run, tunes, img⟩ :=
    optimize_cases params (by decide) (by decide) f.toNat s
  · refine ⟨_, exec_optimize_of_chooses hf run, .inl rfl, ?_, ?_, nofun, fun _ => ?_⟩
    · rw [← tunes.resSide_eq]
      exact tunes.busFrame .ok
    · rw [finish_w, img]
      exact onlyBits_tunedImage _ _ _ _
    · rw [finish_w, img]
      exact committed_tunedImage fitsLow _
  · refine ⟨_, exec_optimize_of_commError hf run, .inr rfl, ?_, ?_, fun _ => tunes.resSide_eq, nofun⟩
    · rw [← tunes.resSide_eq]
      exact tunes.busFrame .commError
    · rw [finish_w]
      obtain img | img := img <;> rw [img] <;> exact onlyBits_tunedImage _ _ _ _

/-- Settles O29: a silent first probe is the whole command. -/
theorem optimizeStopsAtTheFirstCommError : Obligations.OptimizeStopsAtTheFirstCommError := by
  intro f s rest hf answers
  obtain ⟨fitsHigh, -⟩ := (tunable_params f.toNat).mpr hf
  obtain ⟨t, probeHigh, reads, rd, st⟩ :=
    tuneAndRead_silent (k := params) (by decide) (f.toNat + params.probeOffsetHz) .high (by decide) answers
  refine ⟨_, exec_optimize_of_commError hf (optimize_of_commError probeHigh), rfl, ?_, ?_, st, ?_, rd⟩
  · rw [finish_w, reads.w_eq]
    exact committed_tunedImage fitsHigh _
  · rw [finish_events, finish_w, reads.events, reads.w_eq, flush_events]
    rfl
  · rw [finish_resSide, reads.same]
    rfl

/-- Settles O30: an unsettled probe leaves S.adc, so the level that counts for it is the one from before it. -/
theorem notReadyProbeUsesTheStaleLevel : Obligations.NotReadyProbeUsesTheStaleLevel := by
  intro f s m z y rest hf hm hz hy
  refine ⟨fun answers => ?_, fun answers => ?_, fun answers => ?_⟩
  · obtain ⟨t, probeHigh, st, left⟩ := probe_of_unsettled (f.toNat + 450000) .high hz answers
    have run := exec_optimize_of_probes hf probeHigh (by decide) (probe_of_settled _ _ hm left) (by decide)
    refine ⟨_, run, rfl, ?_, settledTune_adc_toNat ..⟩
    rw [finish_resSide, settledTune_adc_toNat, st]
  · have left : (settledTune params (f.toNat + 450000) .high m s).answers = List.replicate 5 (.bytes z) ++ rest := by
      rw [settledTune_answers, answers, List.tail_cons]
    obtain ⟨u, probeLow, st, -⟩ := probe_of_unsettled (f.toNat - 450000) .low hz left
    have run := exec_optimize_of_probes hf (probe_of_settled _ _ hm answers) (by decide) probeLow (by decide)
    refine ⟨_, run, rfl, ?_, ?_⟩
    · rw [finish_resSide, st]
      exact decide_eq_false (lt_irrefl _)
    · rw [finish_st, st]
      exact settledTune_adc_toNat ..
  · obtain ⟨t, probeHigh, st, left⟩ := probe_of_unsettled (f.toNat + 450000) .high hz answers
    obtain ⟨u, probeLow, st', -⟩ := probe_of_unsettled (f.toNat - 450000) .low hy left
    have run := exec_optimize_of_probes hf probeHigh (by decide) probeLow (by decide)
    refine ⟨_, run, rfl, ?_, ?_⟩
    · rw [finish_resSide, st']
      exact decide_eq_false (lt_irrefl _)
    · rw [finish_st, st', st]

end Sys2Proof

/-! SUPPORT. The tuning and band-search commands (43_search_fsm.md R182 to R202). The optimized tune on three settled frames
is said once (`optimizedTune_of_settled`), and so is every way that a search step (`searchProbe_searchEnds`) and an examined
scan step (`scanExamine_scanEnds`) can end. The loops of R194 and R197 are inductions over the host's rounds. -/

namespace Sys2Proof.Machine

open Sys2Proof.Claims

/-! ## The numbers of the two bands (10_state.md R35) -/

theorem bounds_eq (w : Image) : bounds params w = (minHz (band w), maxHz (band w)) := by
  rw [bounds_params, minHz, maxHz]
  split <;> rfl

theorem freqReg_of_band {w : Image} {f : Int} (lo : minHz (band w) ≤ f) (hi : f ≤ maxHz (band w)) :
    ((freqReg params f).toNat : Int) = f :=
  freqReg_of_bounds (w := w) (by rwa [bounds_eq]) (by rwa [bounds_eq])

theorem minHz_le_maxHz (b : Bool) : minHz b ≤ maxHz b := by cases b <;> decide

/-! ## The image of a station (R182, R185) -/

theorem onlyBits_clearedImage (w : Image) : onlyBits stationBits w (clearedImage w) :=
  onlyBits_trans (onlyBits_setImageBit (j := 0) (b := 7) (by decide) w false)
    (onlyBits_setImageBit (j := 0) (b := 6) (by decide) (putMute w false) false)

/-- The bits of a tune are bits of a station. -/
theorem onlyBits_stationBits_of_tuneBits {v w : Image} (h : onlyBits tuneBits v w) : onlyBits stationBits v w :=
  onlyBits_mono h fun _ _ out => (Bool.or_eq_false_iff.mp out).1

/-- A station's image is the cleared one, tuned. -/
theorem onlyBits_station (k : Config) (f : Int) (sd : Side) (w : Image) :
    onlyBits stationBits w (tunedImage k f sd (clearedImage w)) :=
  onlyBits_trans (onlyBits_clearedImage w) (onlyBits_stationBits_of_tuneBits (onlyBits_tunedImage k f sd _))

theorem unmuted_of_station {k : Config} {f : Int} {sd : Side} {v w : Image} (h : w = tunedImage k f sd (clearedImage v)) :
    mute w = false ∧ searchMode w = false := by
  rw [h, mute_tunedImage, searchMode_tunedImage, mute_clearedImage, searchMode_clearedImage]
  exact ⟨rfl, rfl⟩

/-- A tunable frequency is committed under either side (42_optimizer.md R171). -/
theorem committed_of_tunable {f : Int} (h : inTunableRange f) (sd : Side) (w : Image) :
    committed (tunedImage params f sd w) f (sideBit sd) := by
  obtain ⟨-, -, high, low⟩ := (tunable_params f).mpr h
  cases sd
  · exact committed_tunedImage high w
  · exact committed_tunedImage low w

/-! ## The optimized tune on lined-up frames (R185) -/

/-- What the optimized tune of `f` does when its three reads give the frames `m1`, `m2` and `m3`. -/
structure TunedOn (f : Int) (m1 m2 m3 : Image) (rest : List ReadAnswer) (s t : State) : Prop where
  drives : Drives s t
  w : ∃ sd, sideBit sd = choosesHigh m1 m2 ∧ t.w = tunedImage params f sd s.w
  events : t.events = s.events ++ flushAndRead (tunedImage params (f + 450000) .high s.w) m1 ++
    flushAndRead (tunedImage params (f - 450000) .low s.w) m2 ++ flushAndRead t.w m3
  rd : t.rd = m3
  st : decodesTo t.st m3 (choosesHigh m1 m2)
  answers : t.answers = rest

section
variable (f : Int) {m1 m2 m3 : Image} {rest : List ReadAnswer} {s : State} (h1 : settled m1) (h2 : settled m2)
include h1 h2

theorem optimizedTune_of_settled (answers : s.answers = .bytes m1 :: .bytes m2 :: .bytes m3 :: rest) (h3 : settled m3) :
    ∃ t, optimizedTune params f s = (.ok, t) ∧ TunedOn f m1 m2 m3 rest s t := by
  have run := optimizedTune_settled params (by decide) (by decide) f m1 m2 m3 rest s answers
    (by rwa [rdPll_params]) (by rwa [rdPll_params]) (by rwa [rdPll_params])
  obtain ⟨_, tunes, -⟩ := optimizedTune_cases params (by decide) (by decide) f s
  rw [run] at tunes
  have side : sideBit (choose (rdAdc params m1) (rdAdc params m2)) = choosesHigh m1 m2 := by
    rw [sideBit_choose, rdAdc_toNat, rdAdc_toNat]
    rfl
  have answers' : (settledTune params (f + params.probeOffsetHz) .high m1 s).answers = .bytes m2 :: .bytes m3 :: rest := by
    rw [settledTune_answers, answers, List.tail_cons]
  have answers'' : (settledTune params (f - params.probeOffsetHz) .low m2
      (settledTune params (f + params.probeOffsetHz) .high m1 s)).answers = .bytes m3 :: rest := by
    rw [settledTune_answers, answers', List.tail_cons]
  refine ⟨_, run, tunes.drives, ⟨_, side, by simp⟩, ?_, rfl, ?_, ?_⟩
  · rw [settledTune_events _ _ _ _ _ _ answers'', settledTune_events _ _ _ _ _ _ answers',
      settledTune_events _ _ _ _ _ _ answers, settledTune_w, tunedImage_tunedImage]
    rfl
  · rw [← side]
    exact settledTune_decodesTo ..
  · rw [settledTune_answers, answers'', List.tail_cons]

/-- The optimized tune is NOT_READY when its commit read gives frames with a zero PLL word only (R202). -/
theorem optimizedTune_of_unsettled {z : Image}
    (answers : s.answers = .bytes m1 :: .bytes m2 :: (List.replicate 5 (.bytes z) ++ rest)) (hz : ¬ settled z) :
    ∃ t, optimizedTune params f s = (.notReady, t) ∧ Drives s t ∧ band t.w = band s.w := by
  have probes := optimize_settled params (by decide) (by decide) f m1 m2 _ s answers
    (by rwa [rdPll_params]) (by rwa [rdPll_params])
  obtain ⟨t, commitRead, -⟩ := probe_of_unsettled f (choose (rdAdc params m1) (rdAdc params m2)) hz
    (s := settledTune params (f - params.probeOffsetHz) .low m2 (settledTune params (f + params.probeOffsetHz) .high m1 s))
    (rest := rest) (by simp [answers])
  have run : optimizedTune params f s = (.notReady, t) := by rw [optimizedTune, probes, ← commitRead]
  obtain ⟨_, tunes, -⟩ := optimizedTune_cases params (by decide) (by decide) f s
  rw [run] at tunes
  exact ⟨t, run, tunes.drives, congrArg (BitVec.getLsbD · 5) tunes.b3⟩

end

/-- The acceptance test on a decoded status is the one on its frame (R183, R184). -/
theorem accept_iff_of_decodesTo {st : Status} {m : Image} {high : Bool} (h : decodesTo st m high) (c : StopCode) :
    accept params st.ifc st.adc c ↔ acceptable m c.toNat := by
  obtain ⟨-, -, -, -, ifc, adc, -⟩ := h
  have thr : threshold params c = thresholdOf c.toNat := by revert c; decide
  rw [accept, ifc, adc, thr]
  rfl

/-! ## SET_STATION (R185, R186) -/

theorem exec_setStation_of_tunable {f : Freq} (hf : inTunableRange f.toNat) (s : State) :
    exec (.setStation f) s =
      .next (finish (readResult (setStation params f.toNat s).1) (setStation params f.toNat s).2) :=
  if_pos ((tunable_params _).mpr hf)

/-! ## Recording a search (R187, R195) -/

/-- Direction and level are recorded in their bits of byte 2. -/
theorem onlyBits_recordSearch (up : Bool) (c : StopCode) (s : State) :
    onlyBits recordBits s.w (recordSearch up c s).w := by
  have direction : onlyBits recordBits s.w (putSearchUp s.w up) :=
    onlyBits_setImageBit (j := 2) (b := 7) (by decide) s.w up
  refine onlyBits_trans direction (onlyBits_mono (onlyBits_putStopCode _ c) fun j b out => ?_)
  simp only [recordBits, Bool.and_eq_false_iff, beq_eq_false_iff_ne, decide_eq_false_iff_not] at out
  simp only [Bool.and_eq_false_iff, Bool.or_eq_false_iff, beq_eq_false_iff_ne]
  omega

theorem searchUp_recordSearch (up : Bool) (c : StopCode) (s : State) : searchUp (recordSearch up c s).w = up := by
  rw [recordSearch_w, searchUp_putStopCode, searchUp_putSearchUp]

theorem stopCode_recordSearch (up : Bool) (c : StopCode) (s : State) : stopCode (recordSearch up c s).w = c := by
  rw [recordSearch_w, stopCode_putStopCode]

/-- A station's bits are none of the recorded ones. -/
theorem recorded_of_stationBits {v w : Image} (h : onlyBits stationBits v w) :
    searchUp w = searchUp v ∧ stopCode w = stopCode v := by
  have bit5 : w.b2.getLsbD 5 = v.b2.getLsbD 5 := h 2 5 (by decide) (by decide) rfl
  have bit6 : w.b2.getLsbD 6 = v.b2.getLsbD 6 := h 2 6 (by decide) (by decide) rfl
  refine ⟨h 2 7 (by decide) (by decide) rfl, BitVec.eq_of_toNat_eq ?_⟩
  rw [stopCode_toNat, stopCode_toNat, bit5, bit6]

/-- The band bit is no bit of a tune, a station or a recorded search. -/
theorem band_of_onlyBits {may : Nat → Nat → Bool} {v w : Image} (h : onlyBits may v w) (out : may 3 5 = false) :
    band w = band v := h 3 5 (by decide) (by decide) out

/-! ## The search step (R187, R188) -/

theorem searchWraps_params (up : Bool) (s : State) : searchWraps params up s ↔ wraps up s := by
  rw [searchWraps, bounds_eq]
  rfl

/-- The state in which an in-band search step probes: direction and level recorded, P advanced (R187). -/
def advanceProbe (up : Bool) (lvl : Level) (s : State) : State :=
  { recordSearch up (levelCode lvl) s with p := freqReg params (probeHz up s) }

theorem advanceProbe_p {up : Bool} {s : State} (h : ¬ wraps up s) (lvl : Level) :
    ((advanceProbe up lvl s).p.toNat : Int) = probeHz up s := by
  obtain ⟨hi, lo⟩ := not_or.mp h
  exact freqReg_of_band (not_lt.mp lo) (not_lt.mp hi)

/-- The next probe frequency of a step that does not wrap is tunable (42_optimizer.md R171). -/
theorem inTunableRange_of_not_wraps {up : Bool} {s : State} (h : ¬ wraps up s) : inTunableRange (probeHz up s) := by
  obtain ⟨hi, lo⟩ := not_or.mp h
  exact inTunableRange_of_band (not_lt.mp lo) (not_lt.mp hi)

/-- The parameters at a preset capacity; the default capacity is unbounded (D25). -/
abbrev capped (n : Option Nat) : Config := { params with presetCap := n }

/-- A step that does not wrap probes, at every preset capacity. -/
theorem searchStepWith_of_not_wraps {up : Bool} {s : State} (h : ¬ wraps up s) (n : Option Nat) (lvl : Level) (cap : Bool) :
    searchStepWith (capped n) up lvl cap s =
      .next (searchProbe (capped n) (levelCode lvl) cap (advanceProbe up lvl s)) := by
  have stays : ¬ searchWraps (capped n) up s := (not_congr (searchWraps_params up s)).mpr h
  have inRange : tunable (capped n) (nextProbe (capped n) up s.p) := (tunable_params _).mpr (inTunableRange_of_not_wraps h)
  rw [searchStepWith, if_neg stays, if_pos inRange]
  rfl

theorem exec_searchStep_of_not_wraps {up : Bool} {s : State} (h : ¬ wraps up s) (lvl : Level) (cap : Bool) :
    exec (.searchStep up lvl cap) s = .next (searchProbe params (levelCode lvl) cap (advanceProbe up lvl s)) :=
  searchStepWith_of_not_wraps h none lvl cap

/-! ## Every end of an in-band search step (R187, R189 to R191, R201) -/

/-- How a search step can end, `s` being the state in which it probes. -/
structure SearchEnds (cap : Bool) (s t : State) : Prop where
  frame : busFrame s { t with l := s.l }
  p : t.p = s.p
  bits : onlyBits stationBits s.w t.w
  res : t.res = 3#4 ∨ t.res = 4#4 ∨ t.res = 6#4
  l : t.l = if t.res = 6#4 ∧ cap = true then s.l ++ [s.p] else s.l
  pending : t.res = 4#4 → ∃ sd, t.w = tunedImage params s.p.toNat sd s.w
  complete : t.res = 6#4 → ∃ sd v, t.w = tunedImage params s.p.toNat sd (clearedImage v)

/-- Recording a search and advancing P is no more than that. -/
theorem busFrame_of_advanceProbe {up : Bool} {lvl : Level} {s t : State}
    (h : busFrame (advanceProbe up lvl s) { t with l := s.l }) : busFrame s { t with p := s.p, l := s.l } := by
  have same := congrArg (fun u : State => { u with p := s.p }) h
  exact same

/-- Beside the bus, a search step that ends writes res and the list. -/
theorem Tunes.busFrame_list {k : Config} {n : Nat} {s u : State} {h : List BusEvent} (a : Tunes k n s u h) (r : Result)
    (l : List Freq) : Claims.busFrame s { finish r { u with l := l } with l := s.l } := by
  rw [Claims.busFrame, a.same]
  rfl

theorem searchProbe_searchEnds (c : StopCode) (cap : Bool) (s : State) : SearchEnds cap s (searchProbe params c cap s) := by
  obtain ⟨t, _, probe, ⟨g, sd, img⟩, e⟩ := searchProbe_cases params (by decide) (by decide) c cap s
  have bits : onlyBits stationBits s.w t.w := by
    rw [img]
    exact onlyBits_stationBits_of_tuneBits (onlyBits_tunedImage _ _ _ _)
  obtain e | ⟨⟨-, -, tuned⟩, e | ⟨-, e⟩⟩ := e <;> rw [e]
  · exact ⟨probe.busFrame_list .commError t.l, probe.p_eq, bits, .inl rfl, probe.l_eq, nofun, nofun⟩
  · exact ⟨probe.busFrame_list .pending t.l, probe.p_eq, bits, .inr (.inl rfl), probe.l_eq, fun _ => tuned, nofun⟩
  obtain ⟨u, _, station, ⟨g', sd', img'⟩, e⟩ := searchAccepted_cases params (by decide) (by decide) cap t
  have both := probe.trans station
  have bits' : onlyBits stationBits s.w u.w := by
    rw [img']
    exact onlyBits_trans bits (onlyBits_station _ _ _ _)
  rw [probe.p_eq, probe.l_eq] at e
  obtain e | ⟨⟨-, -, sd, tuned⟩, ⟨rfl, e⟩ | ⟨rfl, -, e⟩ | ⟨-, full, -⟩⟩ := e
  · rw [e]
    exact ⟨both.busFrame_list .commError u.l, both.p_eq, bits', .inl rfl, both.l_eq, nofun, nofun⟩
  · rw [e]
    exact ⟨both.busFrame_list .complete u.l, both.p_eq, bits', .inr (.inr rfl), both.l_eq, nofun, fun _ => ⟨sd, t.w, tuned⟩⟩
  · rw [e]
    exact ⟨both.busFrame_list .complete _, both.p_eq, bits', .inr (.inr rfl), rfl, nofun, fun _ => ⟨sd, t.w, tuned⟩⟩
  · exact nomatch full

/-! ## An in-band search step on lined-up frames (R183, R187, R190, R202) -/

section
variable {n : Option Nat} {c : StopCode} {cap : Bool} {s t : State}

/-- A probe whose commit read is OK is accepted or left PENDING by the acceptance test (R183, R187). -/
theorem searchProbe_of_ok (run : optimizedTune params s.p.toNat s = (.ok, t)) : searchProbe (capped n) c cap s =
    if accept params t.st.ifc t.st.adc c then searchAccepted (capped n) cap t else finish .pending t := by
  have run' : optimizedTune (capped n) s.p.toNat s = (.ok, t) := run
  rw [searchProbe, run']
  rfl

theorem searchProbe_of_notReady (run : optimizedTune params s.p.toNat s = (.notReady, t)) :
    searchProbe (capped n) c cap s = finish .pending t := by
  have run' : optimizedTune (capped n) s.p.toNat s = (.notReady, t) := run
  rw [searchProbe, run']

/-- An accepted step that re-tunes with OK is COMPLETE, and captures P while the list has room (R187, R191, R226). -/
theorem searchAccepted_of_ok (run : setStation params s.p.toNat s = (.ok, t)) : searchAccepted (capped n) cap s =
    if cap = true ∧ n = some t.l.length then finish .presetFull t
    else finish .complete { t with l := if cap then t.l ++ [t.p] else t.l } := by
  have run' : setStation (capped n) s.p.toNat s = (.ok, t) := run
  rw [searchAccepted, run']
  cases cap with
  | false => simp
  | true => by_cases full : n = some t.l.length <;> simp [appendPreset, full]

end

/-- What an accepted search step from `s` leaves before it captures P, when the three reads `m4`, `m5` and `m6` of its re-tune
settle (R190). -/
structure Accepted (up : Bool) (m4 m5 m6 : Image) (rest : List ReadAnswer) (s t : State) : Prop where
  l : t.l = s.l
  p : (t.p.toNat : Int) = probeHz up s
  mute : mute t.w = false
  searchMode : searchMode t.w = false
  committed : committed t.w (probeHz up s) (choosesHigh m4 m5)
  rd : t.rd = m6
  st : decodesTo t.st m6 (choosesHigh m4 m5)
  writes : writes t.events = writes s.events + 6
  answers : t.answers = rest

theorem TunedOn.writes {f : Int} {m1 m2 m3 : Image} {rest : List ReadAnswer} {s t : State}
    (h : TunedOn f m1 m2 m3 rest s t) : Machine.writes t.events = Machine.writes s.events + 3 := by
  rw [h.events]
  simp [flushAndRead]

section
variable {up : Bool} {lvl : Level} {s : State} {m1 m2 m3 m4 m5 m6 : Image} {rest : List ReadAnswer} (inBand : ¬ wraps up s)
  (h1 : settled m1) (h2 : settled m2) (h3 : settled m3)
include inBand h1 h2 h3

/-- The probe of an in-band search step, when its three reads settle (R187). -/
theorem advanceProbe_tunedOn (answers : s.answers = .bytes m1 :: .bytes m2 :: .bytes m3 :: rest) :
    ∃ t, optimizedTune params (advanceProbe up lvl s).p.toNat (advanceProbe up lvl s) = (.ok, t) ∧
      TunedOn (probeHz up s) m1 m2 m3 rest (advanceProbe up lvl s) t := by
  rw [advanceProbe_p inBand]
  exact optimizedTune_of_settled _ h1 h2 answers h3

/-- An accepted search step, at every capacity: PRESET_FULL at a full list with capture, else COMPLETE, with P appended
exactly with capture (R187, R191, R226). -/
theorem searchStepWith_accepted
    (answers : s.answers = .bytes m1 :: .bytes m2 :: .bytes m3 :: .bytes m4 :: .bytes m5 :: .bytes m6 :: rest)
    (h4 : settled m4) (h5 : settled m5) (h6 : settled m6) (station : acceptable m3 (codeOf lvl)) :
    ∃ t, Accepted up m4 m5 m6 rest s t ∧ ∀ n cap, searchStepWith (capped n) up lvl cap s =
      .next (if cap = true ∧ n = some t.l.length then finish .presetFull t
        else finish .complete { t with l := if cap then t.l ++ [t.p] else t.l }) := by
  obtain ⟨t, probe, tuned⟩ := advanceProbe_tunedOn (lvl := lvl) inBand h1 h2 h3 answers
  obtain ⟨u, retune, tuned'⟩ := optimizedTune_of_settled (probeHz up s) (s := { t with w := clearedImage t.w })
    h4 h5 tuned.answers h6
  have hp : (t.p.toNat : Int) = probeHz up s := by rw [tuned.drives.p, advanceProbe_p inBand]
  have accepted : accept params t.st.ifc t.st.adc (levelCode lvl) :=
    (accept_iff_of_decodesTo tuned.st _).mpr (by rwa [levelCode_toNat])
  obtain ⟨sd, chosen, img⟩ := tuned'.w
  obtain ⟨unmuted, noSearch⟩ := unmuted_of_station img
  refine ⟨u, ⟨tuned'.drives.l.trans tuned.drives.l, by rw [tuned'.drives.p, hp], unmuted, noSearch, ?_, tuned'.rd,
    tuned'.st, ?_, tuned'.answers⟩, fun n cap => ?_⟩
  · rw [img, ← chosen]
    exact committed_of_tunable (inTunableRange_of_not_wraps inBand) sd _
  · exact tuned'.writes.trans (congrArg (· + 3) tuned.writes)
  · rw [← hp] at retune
    rw [searchStepWith_of_not_wraps inBand, searchProbe_of_ok probe, if_pos accepted, searchAccepted_of_ok retune]

end

/-! ## An examined scan step (R196 to R198, R201) -/

theorem minHz_le_scanHz (s : State) : minHz (band s.w) ≤ scanHz s := by
  rw [scanHz]
  omega

/-- The index of a frequency in the band is at most 205 (R198). -/
theorem scanIdx_le_of_inBand {s : State} (h : scanHz s ≤ maxHz (band s.w)) : s.scanIdx.toNat ≤ 205 := by
  rw [scanHz] at h
  cases hb : band s.w <;> simp [hb, minHz, maxHz] at h <;> omega

theorem scanIdx_succ_toNat {s : State} (h : scanHz s ≤ maxHz (band s.w)) :
    (s.scanIdx + 1#16).toNat = s.scanIdx.toNat + 1 := by
  have := scanIdx_le_of_inBand h
  rw [BitVec.toNat_add]
  exact Nat.mod_eq_of_lt (Nat.lt_of_le_of_lt (Nat.succ_le_succ this) (by decide))

/-- How an examined scan step ends when no COMM_ERROR ends it: the scan goes on while the next frequency is in the band. -/
def scanResult (s : State) : Result := if scanHz s + 100000 ≤ maxHz (band s.w) then .scanMore else .scanDone

theorem scanResult_cases (s : State) : scanResult s = .scanMore ∨ scanResult s = .scanDone := by
  unfold scanResult
  split
  · exact .inl rfl
  · exact .inr rfl

/-- The end of an examined step of an active scan (R196, R198). -/
theorem scanAdvance_of_inBand {s : State} (active : s.scanActive = true) (inBand : scanHz s ≤ maxHz (band s.w)) :
    scanAdvance params s = finish (scanResult s)
      { s with scanIdx := s.scanIdx + 1#16, scanActive := decide (scanResult s = .scanMore) } := by
  have next : scanFreq params { s with scanIdx := s.scanIdx + 1#16 } = scanHz s + 100000 := by
    have idx := scanIdx_succ_toNat inBand
    rw [scanFreq_params, scanHz, scanHz, idx]
    push_cast
    ring
  obtain ⟨more, e⟩ | ⟨done, e⟩ := scanAdvance_cases params s <;> rw [e]
  · rw [next, bounds_eq] at more
    simp [scanResult, more, ← active]
  · rw [next, bounds_eq] at done
    simp [scanResult, not_le.mpr done]

theorem exec_scanStep_of_inBand {s : State} (active : s.scanActive = true) (inBand : scanHz s ≤ maxHz (band s.w)) :
    exec .scanStep s = .next (scanExamine params (scanHz s) s) := by
  have stays : ¬ scanFreq params s > (bounds params s.w).2 := by
    rw [scanFreq_params, bounds_eq]
    exact not_lt.mpr inBand
  have inRange : tunable params (scanFreq params s) := by
    rw [scanFreq_params]
    exact (tunable_params _).mpr (inTunableRange_of_band (minHz_le_scanHz s) inBand)
  rw [exec, execScanStep, scanStepWith, if_neg (by simp [active]), if_neg stays, if_pos inRange, scanFreq_params]

section
variable {s u : State} (active : s.scanActive = true) (inBand : scanHz s ≤ maxHz (band s.w))
include active inBand

/-- The step advances after it has driven the bus, with the frequency appended or not. -/
theorem scanAdvance_after (d : Drives s u) (hb : band u.w = band s.w) (l : List Freq) :
    scanAdvance params { u with l := l } = finish (scanResult s)
      { u with l := l, scanIdx := s.scanIdx + 1#16, scanActive := decide (scanResult s = .scanMore) } := by
  have hz : scanHz { u with l := l } = scanHz s := by rw [scanHz, scanHz, hb, d.scanIdx]
  have result : scanResult { u with l := l } = scanResult s := by rw [scanResult, scanResult, hz, hb]
  rw [← result, ← d.scanIdx]
  exact scanAdvance_of_inBand (s := { u with l := l }) (d.scanActive.trans active) (by rwa [hz, hb])

/-- Examining a frequency whose commit read is OK (R183, R196). -/
theorem scanExamine_of_ok (run : optimizedTune params (scanHz s) s = (.ok, u)) (d : Drives s u)
    (hb : band u.w = band s.w) : scanExamine params (scanHz s) s = finish (scanResult s)
      { u with
        l := if accept params u.st.ifc u.st.adc s.scanCode then s.l ++ [freqReg params (scanHz s)] else s.l
        scanIdx := s.scanIdx + 1#16, scanActive := decide (scanResult s = .scanMore) } := by
  rw [scanExamine, run, ← d.scanCode, ← scanAdvance_after active inBand d hb]
  dsimp only
  by_cases station : accept params u.st.ifc u.st.adc u.scanCode
  · rw [if_pos station, if_pos station]
    simp [appendPreset, d.l]
  · rw [if_neg station, if_neg station, ← d.l]

/-- A NOT_READY commit read accepts nothing, and the scan advances (R202). -/
theorem scanExamine_of_notReady (run : optimizedTune params (scanHz s) s = (.notReady, u)) (d : Drives s u)
    (hb : band u.w = band s.w) : scanExamine params (scanHz s) s = finish (scanResult s)
      { u with scanIdx := s.scanIdx + 1#16, scanActive := decide (scanResult s = .scanMore) } := by
  rw [scanExamine, run]
  exact scanAdvance_after active inBand d hb u.l

end

/-- How an examined scan step from `s` can end. -/
structure ScanEnds (s t : State) : Prop where
  frame : busFrame s { t with l := s.l, scanIdx := s.scanIdx, scanActive := s.scanActive }
  c : t.c = s.c
  bits : onlyBits tuneBits s.w t.w
  ends : t.res = 3#4 ∧ t.scanActive = false ∧ t.l = s.l ∧ t.scanIdx = s.scanIdx ∨
    t.res = resultCode (scanResult s) ∧ t.scanActive = decide (scanResult s = .scanMore) ∧
      t.scanIdx = s.scanIdx + 1#16 ∧ (t.l = s.l ∨ ∃ f : Freq, (f.toNat : Int) = scanHz s ∧ t.l = s.l ++ [f])

/-- Beside the bus, an examined scan step writes res, the list, the index and scanActive. -/
theorem Tunes.busFrame_scan {k : Config} {n : Nat} {s u : State} {h : List BusEvent} (a : Tunes k n s u h) (r : Result) :
    Claims.busFrame s { u with l := s.l, scanIdx := s.scanIdx, scanActive := s.scanActive, res := resultCode r } := by
  rw [Claims.busFrame, a.same]

theorem scanExamine_scanEnds {s : State} (active : s.scanActive = true) (inBand : scanHz s ≤ maxHz (band s.w)) :
    ScanEnds s (scanExamine params (scanHz s) s) := by
  obtain ⟨u, _, tunes, ⟨g, sd, img⟩, e⟩ := scanExamine_cases params (by decide) (by decide) (scanHz s) s
  have hb : band u.w = band s.w := by rw [img, band_tunedImage]
  have bits : onlyBits tuneBits s.w u.w := by
    rw [img]
    exact onlyBits_tunedImage _ _ _ _
  obtain e | ⟨-, e | ⟨-, ⟨-, e⟩ | ⟨full, -⟩⟩⟩ := e
  · rw [e]
    exact ⟨tunes.busFrame_scan .commError, tunes.c_eq, bits, .inl ⟨rfl, rfl, tunes.l_eq, tunes.scanIdx_eq⟩⟩
  · rw [e, scanAdvance_after active inBand tunes.drives hb u.l]
    exact ⟨tunes.busFrame_scan _, tunes.c_eq, bits, .inr ⟨rfl, rfl, rfl, .inl tunes.l_eq⟩⟩
  · rw [e, scanAdvance_after active inBand tunes.drives hb]
    have held := freqReg_of_band (minHz_le_scanHz s) inBand
    exact ⟨tunes.busFrame_scan _, tunes.c_eq, bits, .inr ⟨rfl, rfl, rfl, .inr ⟨_, held, rfl⟩⟩⟩
  · exact nomatch full

/-! ## The band scan (R195 to R198) -/

theorem issueWhile_again {i : Instr} {r : Result} {s t : State} (h : exec i s = .next t) (again : t.res = resultCode r)
    (n : Nat) : issueWhile i r (n + 1) s = issueWhile i r n t := by
  rw [issueWhile, h]
  exact if_pos again

theorem issueWhile_stop {i : Instr} {r : Result} {s t : State} (h : exec i s = .next t) (stop : t.res ≠ resultCode r)
    (n : Nat) : issueWhile i r (n + 1) s = .next t := by
  rw [issueWhile, h]
  exact if_neg stop

theorem issueWhile_one {i : Instr} {r : Result} {s t : State} (h : exec i s = .next t) :
    issueWhile i r 1 s = .next t := by
  rw [issueWhile, h]
  exact ite_self _

/-- SCAN_BAND is SCAN_BEGIN, then SCAN_STEPs (30_encoding.md R88). -/
theorem issuePseudo_scanBand {lvl : Level} {s t : State} (h : exec (.scanBegin lvl) s = .next t) (n : Nat) :
    issuePseudo n (.scanBand lvl) s = issueWhile .scanStep .scanMore n t := by
  simp [issuePseudo, expand, issueAll, h]

/-- The number of frequencies of a band's grid (R198). -/
def scanSteps (b : Bool) : Nat := if b then 151 else 206

/-- The state of a scan of band `b` that has examined `j` frequencies without a COMM_ERROR. -/
structure Scanned (b : Bool) (j : Nat) (s : State) : Prop where
  band : band s.w = b
  idx : s.scanIdx.toNat = j
  c : s.c = 0
  increasing : s.l.Pairwise (fun f g => f.toNat < g.toNat)
  grid : ∀ f ∈ s.l, ∃ i < j, (f.toNat : Int) = minHz b + (i : Int) * 100000

theorem Scanned.scanHz_eq {b : Bool} {j : Nat} {s : State} (h : Scanned b j s) :
    scanHz s = minHz b + (j : Int) * 100000 := by
  rw [scanHz, h.band, h.idx]

/-- The list stays increasing and on the grid, whether the examined frequency is appended or not. -/
theorem Scanned.advance {b : Bool} {j : Nat} {s t : State} (h : Scanned b j s) (hb : Machine.band t.w = b)
    (idx : t.scanIdx.toNat = j + 1) (c : t.c = 0)
    (l : t.l = s.l ∨ ∃ f : Freq, (f.toNat : Int) = scanHz s ∧ t.l = s.l ++ [f]) : Scanned b (j + 1) t := by
  have earlier : ∀ f ∈ s.l, ∃ i < j + 1, (f.toNat : Int) = minHz b + (i : Int) * 100000 := fun f hf =>
    (h.grid f hf).imp fun i hi => ⟨hi.1.trans j.lt_succ_self, hi.2⟩
  obtain l | ⟨g, hg, l⟩ := l
  · exact ⟨hb, idx, c, l ▸ h.increasing, l ▸ earlier⟩
  rw [h.scanHz_eq] at hg
  refine ⟨hb, idx, c, ?_, ?_⟩ <;> rw [l]
  · refine List.pairwise_append.mpr ⟨h.increasing, List.pairwise_singleton .., fun f hf g' hg' => ?_⟩
    obtain rfl := List.mem_singleton.mp hg'
    obtain ⟨i, hi, hf⟩ := h.grid f hf
    omega
  · intro f hf
    obtain hf | hf := List.mem_append.mp hf
    · exact earlier f hf
    · obtain rfl := List.mem_singleton.mp hf
      exact ⟨j, j.lt_succ_self, hg⟩

/-- A step of a scan that has frequencies left is a COMM_ERROR or examines one more; it ends the scan exactly when it was the
last. -/
theorem Scanned.step {b : Bool} {j : Nat} {s : State} (h : Scanned b j s) (active : s.scanActive = true)
    (left : j < scanSteps b) : ∃ t, exec .scanStep s = .next t ∧
      (t.res = 3#4 ∨ t.res = (if j + 1 = scanSteps b then 8#4 else 7#4) ∧
        t.scanActive = decide (j + 1 ≠ scanSteps b) ∧ Scanned b (j + 1) t) := by
  have inBand : scanHz s ≤ maxHz (Machine.band s.w) := by
    rw [h.scanHz_eq, h.band]
    cases b <;> simp [scanSteps, minHz, maxHz] at left ⊢ <;> omega
  have more : scanHz s + 100000 ≤ maxHz (Machine.band s.w) ↔ j + 1 ≠ scanSteps b := by
    rw [h.scanHz_eq, h.band]
    cases b <;> simp [scanSteps, minHz, maxHz] at left ⊢ <;> omega
  have result : scanResult s = if j + 1 = scanSteps b then .scanDone else .scanMore := by
    rw [scanResult]
    simp only [more, ne_eq, ite_not]
  obtain ⟨-, c, bits, ends⟩ := scanExamine_scanEnds active inBand
  refine ⟨_, exec_scanStep_of_inBand active inBand, ?_⟩
  obtain ⟨res, -⟩ | ⟨res, act, idx, l⟩ := ends
  · exact .inl res
  · refine .inr ⟨?_, ?_, h.advance ((band_of_onlyBits bits rfl).trans h.band) ?_ (c.trans h.c) l⟩
    · rw [res, result]
      split <;> rfl
    · by_cases last : j + 1 = scanSteps b <;> simp [act, result, last]
    · rw [idx, scanIdx_succ_toNat inBand, h.idx]

/-- The host's rounds of SCAN_STEP, from a scan that has at least as many frequencies left (R197, R198). -/
theorem Scanned.loop {b : Bool} {j n : Nat} {s : State} (h : Scanned b j s) (active : s.scanActive = true)
    (left : j + (n + 1) ≤ scanSteps b) : ∃ t, issueWhile .scanStep .scanMore (n + 1) s = .next t ∧
      (t.res = 3#4 ∨ t.res = (if j + (n + 1) = scanSteps b then 8#4 else 7#4) ∧ Scanned b (j + (n + 1)) t) := by
  induction n generalizing j s with
  | zero =>
    obtain ⟨t, run, ends⟩ := h.step active (by omega)
    exact ⟨t, issueWhile_one run, ends.imp_right fun e => ⟨e.1, e.2.2⟩⟩
  | succ n ih =>
    obtain ⟨t, run, res | ⟨res, act, scanned⟩⟩ := h.step active (by omega)
    · exact ⟨t, issueWhile_stop run (by rw [res]; decide) _, .inl res⟩
    · have more : j + 1 ≠ scanSteps b := by omega
      rw [if_neg more] at res
      obtain ⟨u, run', ends⟩ := ih scanned (by simpa [more] using act) (by omega)
      rw [Nat.add_assoc, Nat.add_comm 1] at ends
      exact ⟨u, (issueWhile_again (r := .scanMore) run res _).trans run', ends⟩

/-! ## Every well-formed configuration (00_scope.md R7, D10) -/

/-- What a well-formed configuration gives the search: each retry loop makes an attempt, and P holds every frequency of a
band. -/
theorem search_of_wellFormed {k : Config} (h : k.WellFormed = true) (w : Image) :
    0 < k.readAttempts ∧ 0 < k.zeroAttempts ∧ (bounds k w).1 ≤ (bounds k w).2 ∧
      ∀ f, (bounds k w).1 ≤ f → f ≤ (bounds k w).2 → ((freqReg k f).toNat : Int) = f := by
  simp only [Config.WellFormed, Config.bandsWellFormed, Config.widthsWellFormed, Config.attemptsWellFormed,
    Bool.and_eq_true, decide_eq_true_eq] at h
  obtain ⟨⟨⟨⟨bands, -⟩, widths⟩, reads, zeros⟩, -⟩ := h
  obtain ⟨⟨⟨⟨⟨positive0, ordered0⟩, -⟩, positive1⟩, ordered1⟩, -⟩ := bands
  obtain ⟨⟨⟨-, width⟩, fits0⟩, fits1⟩ := widths
  have holds {lo hi f : Int} (positive : 670904 ≤ lo) (fits : hi.toNat < 2 ^ k.freqOperandBits) (above : lo ≤ f)
      (below : f ≤ hi) : ((freqReg k f).toNat : Int) = f :=
    freqReg_toNat k width f (by omega) ((Int.toNat_le_toNat below).trans_lt fits)
  rw [bounds]
  cases band w
  · exact ⟨reads, zeros, ordered0, fun f => holds positive0 fits0⟩
  · exact ⟨reads, zeros, ordered1, fun f => holds positive1 fits1⟩

theorem searchAccepted_p {k : Config} (hk : 0 < k.readAttempts) (hz : 0 < k.zeroAttempts) (cap : Bool) (s : State) :
    (searchAccepted k cap s).p = s.p := by
  obtain ⟨t, _, tunes, -, e⟩ := searchAccepted_cases k hk hz cap s
  obtain e | ⟨-, ⟨-, e⟩ | ⟨-, -, e⟩ | ⟨-, -, e⟩⟩ := e <;> rw [e] <;> exact tunes.p_eq

/-- Probing leaves P where the step put it. -/
theorem searchProbe_p {k : Config} (hk : 0 < k.readAttempts) (hz : 0 < k.zeroAttempts) (c : StopCode) (cap : Bool)
    (s : State) : (searchProbe k c cap s).p = s.p := by
  obtain ⟨t, _, tunes, -, e⟩ := searchProbe_cases k hk hz c cap s
  obtain e | ⟨-, e | ⟨-, e⟩⟩ := e <;> rw [e]
  · exact tunes.p_eq
  · exact tunes.p_eq
  · exact (searchAccepted_p hk hz cap t).trans tunes.p_eq

end Sys2Proof.Machine

namespace Sys2Proof

open Machine Claims

/-- Settles O31: SET_STATION is the optimized tune of an unmuted image, and its three reads settle. -/
theorem setStationTunesUnderTheChosenSide : Obligations.SetStationTunesUnderTheChosenSide := by
  intro f s m1 m2 m3 rest hf answers h1 h2 h3
  obtain ⟨t, run, tuned⟩ :=
    optimizedTune_of_settled f.toNat (s := { s with w := clearedImage s.w }) h1 h2 answers h3
  obtain ⟨sd, chosen, img⟩ := tuned.w
  obtain ⟨fitsHigh, fitsLow, -⟩ := (tunable_params f.toNat).mpr hf
  have step := exec_setStation_of_tunable hf s
  rw [setStation_eq, run] at step
  obtain ⟨unmuted, noSearch⟩ := unmuted_of_station img
  refine ⟨_, _, _, step, rfl, unmuted, noSearch, committed_tunedImage fitsHigh _, committed_tunedImage fitsLow _, ?_,
    tuned.events, tuned.rd, tuned.st, tuned.answers⟩
  rw [finish_w, img, ← chosen]
  exact committed_of_tunable hf sd _

/-- Settles O32: however its tune ends, SET_STATION leaves the cleared image tuned to some frequency, and to `f` unless the
tune ends in COMM_ERROR. -/
theorem setStationFrame : Obligations.SetStationFrame := by
  intro f s hf
  obtain ⟨_, tunes, done, g, sd, img⟩ := setStation_cases params (by decide) (by decide) f.toNat s
  obtain ⟨unmuted, noSearch⟩ := unmuted_of_station img
  refine ⟨_, exec_setStation_of_tunable hf s, resultCode_readResult _, tunes.busFrame _, unmuted, noSearch, ?_,
    fun hr => ?_⟩
  · rw [finish_w, img]
    exact onlyBits_station _ _ _ _
  · obtain ⟨-, -, sd', img'⟩ := done fun r => hr (by rw [finish_res, r]; rfl)
    rw [finish_w, img']
    exact ⟨_, committed_of_tunable hf sd' _⟩

/-- Settles O33: a step that wraps records the search and moves P to the bound on the other side. -/
theorem searchStepWrapsAtTheBandEdge : Obligations.SearchStepWrapsAtTheBandEdge := by
  intro up lvl cap s h
  refine ⟨_, if_pos ((searchWraps_params up s).mpr h), rfl, ?_, searchUp_recordSearch up _ s, ?_,
    onlyBits_recordSearch up (levelCode lvl) s⟩
  · rw [finish_p, bounds_eq]
    cases up
    · exact freqReg_of_band (minHz_le_maxHz _) le_rfl
    · exact freqReg_of_band le_rfl (minHz_le_maxHz _)
  · rw [← levelCode_toNat]
    exact congrArg BitVec.toNat (stopCode_recordSearch up _ s)

/-- Settles O34: the step probes with the search recorded and P advanced, and what a probe leaves alone is as before. -/
theorem searchStepProbesInBand : Obligations.SearchStepProbesInBand := by
  intro up lvl cap s h
  have run := exec_searchStep_of_not_wraps h lvl cap
  obtain ⟨frame, p, bits, res, l, pending, complete⟩ := searchProbe_searchEnds (levelCode lvl) cap (advanceProbe up lvl s)
  generalize searchProbe params (levelCode lvl) cap (advanceProbe up lvl s) = t at *
  obtain ⟨direction, code⟩ := recorded_of_stationBits bits
  have inRange := inTunableRange_of_not_wraps h
  rw [← advanceProbe_p h lvl] at inRange ⊢
  refine ⟨t, run, res, busFrame_of_advanceProbe frame, by rw [p],
    direction.trans (searchUp_recordSearch up _ s), ?_, ?_, by rwa [p], ?_, ?_⟩
  · rw [code, ← levelCode_toNat]
    exact congrArg BitVec.toNat (stopCode_recordSearch up _ s)
  · refine onlyBits_trans (onlyBits_mono (onlyBits_recordSearch up (levelCode lvl) s) fun _ _ out => ?_)
      (onlyBits_mono bits fun _ _ out => ?_)
    · exact (Bool.or_eq_false_iff.mp out).2
    · exact (Bool.or_eq_false_iff.mp out).1
  · intro isPending
    obtain ⟨sd, img⟩ := pending isPending
    rw [p, img, mute_tunedImage, searchMode_tunedImage]
    exact ⟨rfl, rfl, _, committed_of_tunable inRange sd _⟩
  · intro isComplete
    obtain ⟨sd, v, img⟩ := complete isComplete
    obtain ⟨unmuted, noSearch⟩ := unmuted_of_station img
    rw [p]
    exact ⟨unmuted, noSearch, _, img ▸ committed_of_tunable inRange sd _⟩

/-- Settles O35: the decoded third frame fails the acceptance test, and the station the probe tuned stays. -/
theorem searchStepLeavesAnUnacceptedStationPending : Obligations.SearchStepLeavesAnUnacceptedStationPending := by
  intro up lvl cap s m1 m2 m3 rest inBand answers h1 h2 h3 noStation
  obtain ⟨t, probe, tuned⟩ := advanceProbe_tunedOn (lvl := lvl) inBand h1 h2 h3 answers
  have refused : ¬ accept params t.st.ifc t.st.adc (levelCode lvl) := by
    rwa [accept_iff_of_decodesTo tuned.st, levelCode_toNat]
  obtain ⟨sd, chosen, img⟩ := tuned.w
  have run : exec (.searchStep up lvl cap) s = _ := searchStepWith_of_not_wraps inBand none lvl cap
  rw [searchProbe_of_ok probe, if_neg refused] at run
  refine ⟨_, run, rfl, tuned.drives.l, tuned.rd, ?_, tuned.st, tuned.answers⟩
  rw [finish_w, img, ← chosen]
  exact committed_of_tunable (inTunableRange_of_not_wraps inBand) sd _

/-- Settles O36: the accepted step re-tunes, and the unbounded list has room for P. -/
theorem searchStepCompletesOnAnAcceptedStation : Obligations.SearchStepCompletesOnAnAcceptedStation := by
  intro up lvl cap s m1 m2 m3 m4 m5 m6 rest inBand answers h1 h2 h3 h4 h5 h6 station
  obtain ⟨t, a, run⟩ := searchStepWith_accepted inBand h1 h2 h3 answers h4 h5 h6 station
  refine ⟨_, (run none cap).trans (congrArg _ (if_neg (by simp))), rfl, ?_, a.p, a.mute, a.searchMode, a.committed, a.rd,
    a.st, a.writes, a.answers⟩
  rw [← a.l]
  rfl

/-- Settles O60: the accepted step re-tunes, and the capacity decides whether P is appended. -/
theorem fullPresetListEndsTheSearchStep : Obligations.FullPresetListEndsTheSearchStep := by
  intro n up lvl s m1 m2 m3 m4 m5 m6 rest inBand answers h1 h2 h3 h4 h5 h6 station
  obtain ⟨t, a, run⟩ := searchStepWith_accepted inBand h1 h2 h3 answers h4 h5 h6 station
  rw [← a.l]
  refine ⟨fun full => ⟨⟨_, (run (some n) true).trans (congrArg _ (if_pos ⟨rfl, by rw [full]⟩)), rfl, rfl, a.p, a.mute,
    a.searchMode, a.committed, a.st, a.rd, a.writes, a.answers⟩, ?_⟩, fun room => ?_⟩
  · exact ⟨_, (run (some n) false).trans (congrArg _ (if_neg (by simp))), rfl, rfl⟩
  · exact ⟨_, (run (some n) true).trans (congrArg _ (if_neg (by simp; omega))), rfl, rfl, a.p⟩

/-- Settles O37: a NOT_READY commit read leaves the search step PENDING and the scan step to advance, before any acceptance
test. -/
theorem notReadyNeverAccepts : Obligations.NotReadyNeverAccepts := by
  intro s m1 m2 z rest answers h1 h2 hz
  refine ⟨fun up lvl cap inBand => ?_, fun active inBand => ?_⟩
  · obtain ⟨t, probe, drives, -⟩ := optimizedTune_of_unsettled (advanceProbe up lvl s).p.toNat (s := advanceProbe up lvl s)
      h1 h2 answers hz
    refine ⟨_, searchStepWith_of_not_wraps inBand none lvl cap, ?_⟩
    rw [searchProbe_of_notReady probe]
    exact ⟨rfl, drives.l⟩
  · obtain ⟨t, examined, drives, hb⟩ := optimizedTune_of_unsettled (scanHz s) h1 h2 answers hz
    refine ⟨_, exec_scanStep_of_inBand active inBand, ?_⟩
    rw [scanExamine_of_notReady active inBand examined drives hb]
    refine ⟨?_, drives.l, rfl⟩
    obtain result | result := scanResult_cases s <;> rw [finish_res, result]
    · exact .inl rfl
    · exact .inr rfl

/-- Settles O40: the decoded third frame meets the acceptance test or not, and the index of the next frequency decides how
the step ends. -/
theorem scanStepExaminesOneFrequency : Obligations.ScanStepExaminesOneFrequency := by
  intro s m1 m2 m3 rest active inBand answers h1 h2 h3
  obtain ⟨t, examined, tuned⟩ := optimizedTune_of_settled (scanHz s) h1 h2 answers h3
  obtain ⟨sd, chosen, img⟩ := tuned.w
  have station := accept_iff_of_decodesTo tuned.st s.scanCode
  refine ⟨_, exec_scanStep_of_inBand active inBand, ?_⟩
  rw [scanExamine_of_ok active inBand examined tuned.drives (by rw [img, band_tunedImage])]
  have held := freqReg_of_band (minHz_le_scanHz s) inBand
  refine ⟨?_, tuned.st, rfl, fun yes => ⟨_, held, ?_⟩, fun no => ?_, fun more => ?_, fun done => ?_, tuned.answers⟩
  · rw [finish_w, img, ← chosen]
    exact committed_of_tunable (inTunableRange_of_band (minHz_le_scanHz s) inBand) sd _
  · exact if_pos (station.mpr yes)
  · exact if_neg (mt station.mp no)
  · simp [scanResult, more, resultCode]
  · simp [scanResult, not_le.mpr done, resultCode]

/-- Settles O41: every end of an examined step is a COMM_ERROR or an advance. -/
theorem scanStepFrame : Obligations.ScanStepFrame := by
  intro s active inBand
  obtain ⟨frame, -, bits, ends⟩ := scanExamine_scanEnds active inBand
  refine ⟨_, exec_scanStep_of_inBand active inBand, ?_⟩
  generalize scanExamine params (scanHz s) s = t at *
  obtain ⟨res, idle, l, idx⟩ | ⟨res, act, idx, l⟩ := ends
  · exact ⟨.inl res, frame, bits, fun _ => ⟨idle, l, idx⟩, fun ne => (ne res).elim⟩
  · obtain result | result := scanResult_cases s <;> rw [result] at res act <;> rw [res] at frame ⊢
    · exact ⟨.inr (.inl rfl), frame, bits, nofun, fun _ => ⟨idx, act, l⟩⟩
    · exact ⟨.inr (.inr rfl), frame, bits, nofun, fun _ => ⟨idx, act, l⟩⟩

/-- Settles O38: the scan registers are written, and the search is recorded in W. -/
theorem scanBeginStartsAnEmptyScan : Obligations.ScanBeginStartsAnEmptyScan := fun lvl s =>
  ⟨_, rfl, rfl, levelCode_toNat lvl, searchUp_recordSearch true _ (clearPresets s), stopCode_recordSearch true _ _,
    onlyBits_recordSearch true (levelCode lvl) (clearPresets s)⟩

/-- Settles O39, by the two tests at the entry of the step. -/
theorem scanStepWithoutAFrequency : Obligations.ScanStepWithoutAFrequency := by
  refine fun s => ⟨fun idle => if_pos idle, fun active past => ?_⟩
  have pastBand : scanFreq params s > (bounds params s.w).2 := by rwa [scanFreq_params, bounds_eq]
  rw [exec, execScanStep, scanStepWith, if_neg (by simp [active]), if_pos pastBand]
  rfl

/-- Settles O42: the scan that SCAN_BEGIN starts has examined none of its frequencies, and each round examines one. -/
theorem scanBandExaminesTheWholeBand : Obligations.ScanBandExaminesTheWholeBand := by
  intro lvl s n pos most
  obtain ⟨t, begin, same, -, -, -, bits⟩ := scanBeginStartsAnEmptyScan lvl s
  have start : Scanned (band s.w) 0 t ∧ t.scanActive = true := by
    rw [same]
    exact ⟨⟨band_of_onlyBits bits rfl, rfl, rfl, .nil, nofun⟩, rfl⟩
  obtain ⟨n, rfl⟩ := Nat.exists_eq_add_one_of_ne_zero pos.ne'
  obtain ⟨u, run, ends⟩ := start.1.loop start.2 ((Nat.zero_add _).trans_le most)
  rw [Nat.zero_add] at ends
  exact ⟨u, (issuePseudo_scanBand begin _).trans run,
    ends.imp_right fun ⟨res, scanned⟩ => ⟨res, scanned.idx, scanned.c, scanned.increasing, scanned.grid⟩⟩

/-- The loop ends in as many rounds as P is steps away from leaving the band: a PENDING step brings P one step nearer to the
bound, and the step over it is STOP (R187, R188). -/
theorem searchLoop_ends (up : Bool) (lvl : Level) (cap : Bool) (n : Nat) (s : State)
    (lo : minHz (band s.w) ≤ s.p.toNat) (hi : (s.p.toNat : Int) ≤ maxHz (band s.w))
    (left : (if up then maxHz (band s.w) - s.p.toNat else s.p.toNat - minHz (band s.w)) < (n : Int) * 100000) :
    ∃ t, issueWhile (.searchStep up lvl cap) .pending n s = .next t ∧ (t.res = 3#4 ∨ t.res = 5#4 ∨ t.res = 6#4) := by
  induction n generalizing s with
  | zero => cases up <;> simp at left <;> omega
  | succ n ih =>
    by_cases beyond : wraps up s
    · obtain ⟨t, run, same, -⟩ := searchStepWrapsAtTheBandEdge up lvl cap s beyond
      have res : t.res = 5#4 := by rw [same]
      exact ⟨t, issueWhile_stop run (by rw [res]; decide) _, .inr (.inl res)⟩
    · obtain ⟨t, run, res, -, p, -, -, bits, -⟩ := searchStepProbesInBand up lvl cap s beyond
      obtain res | res | res := res
      · exact ⟨t, issueWhile_stop run (by rw [res]; decide) _, .inl res⟩
      · have hb := band_of_onlyBits bits rfl
        obtain ⟨below, above⟩ := not_or.mp beyond
        obtain ⟨u, run', ends⟩ := ih t (by rw [hb, p]; exact not_lt.mp above) (by rw [hb, p]; exact not_lt.mp below) (by
          rw [hb, p, probeHz]
          cases up <;> simp at left ⊢ <;> omega)
        exact ⟨u, (issueWhile_again (r := .pending) run res _).trans run', ends⟩
      · exact ⟨t, issueWhile_stop run (by rw [res]; decide) _, .inr (.inr res)⟩

/-- Settles O43: no P in the band is further than the band is wide from leaving it. -/
theorem searchLoopEnds : Obligations.SearchLoopEnds := by
  intro up lvl cap s lo hi
  refine searchLoop_ends up lvl cap _ s lo hi ?_
  cases up <;> cases hb : band s.w <;> simp [hb, minHz, maxHz] at lo hi ⊢ <;> omega

/-- Settles O44: a step that wraps writes a bound of the band to P, and a step that probes a frequency in the band. -/
theorem searchKeepsProbeInBandForEveryConfig : Obligations.SearchKeepsProbeInBandForEveryConfig := by
  intro k wf up lvl cap s
  obtain ⟨hk, hz, ordered, holds⟩ := search_of_wellFormed wf s.w
  unfold searchStepWith
  split
  · refine ⟨_, rfl, .inr ?_⟩
    rw [finish_p]
    cases up
    · simp [holds _ ordered le_rfl, ordered]
    · simp [holds _ le_rfl ordered, ordered]
  next inside =>
    obtain ⟨hi, lo⟩ := not_or.mp inside
    split
    · refine ⟨_, rfl, .inr ?_⟩
      rw [searchProbe_p hk hz]
      dsimp only
      rw [holds _ (not_lt.mp lo) (not_lt.mp hi)]
      exact ⟨not_lt.mp lo, not_lt.mp hi⟩
    · exact ⟨_, rfl, .inl rfl⟩

end Sys2Proof

/-! SUPPORT. The preset commands (44_presets.md R221 to R226). PRESET_NEXT and PRESET_PREV differ in the index they go to, so
what going there does is said once (`gotoPreset_of_fits`). A deletion that leaves entries ends as SET_STATION does, at the
entry under the clamped cursor (`exec_presetDelete_of_tunable`). The capacity enters a scan step at its append alone
(`scanExamine_of_station`), and the cursor invariant is read off the writes of each command (`Writes.cursorOk`). -/

namespace Sys2Proof.Machine

open Sys2Proof.Claims

/-! ## Going to a preset (R221, R222, R224) -/

/-- What recalling preset `n` under the side in W leaves: the cursor on it, the PLL word of its frequency, one flush. -/
structure Recalled (n : Nat) (s t : State) : Prop where
  frame : t = { s with w := t.w, c := n, res := 0#4, events := t.events }
  committed : committed t.w (entry s.l n) (injection s.w)
  bits : onlyBits pllBits s.w t.w
  events : t.events = s.events ++ [.write 0x60#7 t.w, .settle 35]

theorem retuneFast_recalled {n : Nat} {s : State} (h : fits (entry s.l n) (injection s.w)) :
    Recalled n s (finish .ok (retuneFast params (entry s.l n) { s with c := n })) := by
  rw [retuneFast, flush_eq]
  exact ⟨rfl, ⟨injection_putPll _ _, pllWord_tune_toNat (s := { s with c := n }) h⟩, onlyBits_putPll _ _, rfl⟩

theorem gotoPreset_of_fits {n : Nat} {s : State} (h : fits (entry s.l n) (injection s.w)) :
    ∃ t, gotoPreset params n s = .next t ∧ Recalled n s t :=
  ⟨_, if_pos ((pllOK_iff_fits _ _).mpr (by rwa [sideBit_side])), retuneFast_recalled h⟩

theorem gotoPreset_of_not_fits {n : Nat} {s : State} (h : ¬ fits (entry s.l n) (injection s.w)) :
    gotoPreset params n s = .next (finish .rangeFault s) :=
  if_neg fun ok => h (by rwa [pllOK_iff_fits, sideBit_side] at ok)

section
variable {s : State}

theorem exec_presetNext_of_empty (h : s.l = []) : exec .presetNext s = .next (finish .empty s) :=
  if_pos (List.length_eq_zero_iff.mpr h)

theorem exec_presetNext_of_nonempty (h : s.l ≠ []) :
    exec .presetNext s = gotoPreset params ((s.c + 1) % s.l.length) s :=
  if_neg (mt List.length_eq_zero_iff.mp h)

theorem exec_presetPrev_of_empty (h : s.l = []) : exec .presetPrev s = .next (finish .empty s) :=
  if_pos (List.length_eq_zero_iff.mpr h)

theorem exec_presetPrev_of_nonempty (h : s.l ≠ []) :
    exec .presetPrev s = gotoPreset params ((s.c + s.l.length - 1) % s.l.length) s :=
  if_neg (mt List.length_eq_zero_iff.mp h)

end

/-! ## The cursor (R225) -/

theorem cursorOk_iff (s : State) : cursorOk s = true ↔ (s.l = [] → s.c = 0) ∧ (s.l ≠ [] → s.c < s.l.length) := by
  by_cases empty : s.l = [] <;> simp [cursorOk, empty]

/-- The registers a command writes keep the cursor valid. -/
theorem Writes.cursorOk {s s' : State} {i : Instr} {r : Result} {m : Image} (w : Writes s i r m s')
    (h : cursorOk s = true) : Machine.cursorOk s' = true := by
  cases w with
  | captures q => exact cursorOk_append q h
  | takes f => exact cursorOk_append f h
  | begins => rfl
  | moves _ n hn => exact cursorOk_of_lt hn
  | deletes _ hn => exact hn
  | _ => exact h

theorem Drives.cursorOk_eq {s u : State} (d : Drives s u) : cursorOk u = cursorOk s := by
  rw [cursorOk, cursorOk, d.l, d.c]

theorem exec_cursorOk {i : Instr} {s t : State} (run : exec i s = .next t) (h : cursorOk s = true) : cursorOk t = true := by
  obtain ⟨writes, drives⟩ := exec_ends run
  exact drives.cursorOk_eq.trans (writes.cursorOk h)

/-! ## Deleting a preset (R223) -/

/-- The list and the cursor as a deletion leaves them. -/
def deleted (s : State) : State := { s with l := (afterDelete s).1, c := (afterDelete s).2 }

/-- Beside the list and the cursor, what drives the bus after a deletion leaves the rest of the frame alone. -/
theorem busFrame_of_deleted {s t : State} (h : busFrame (deleted s) t) : busFrame s { t with l := s.l, c := s.c } := by
  have same := congrArg (fun u : State => { u with l := s.l, c := s.c }) h
  exact same

theorem afterDelete_length_ne_zero {s : State} (h : 2 ≤ s.l.length) : (afterDelete s).1.length ≠ 0 := by
  rw [afterDelete, List.length_eraseIdx]
  split <;> omega

/-- Deleting the only entry under a valid cursor empties the list. -/
theorem removePreset_of_single {s : State} (cursor : cursorOk s = true) (h : s.l.length = 1) : removePreset s.c s.l = [] := by
  have inside := ((cursorOk_iff s).mp cursor).2 (List.ne_nil_of_length_eq_add_one h)
  rw [removePreset, List.eraseIdx_eq_nil_iff]
  omega

section
variable {s : State}

theorem exec_presetDelete_of_empty (h : s.l = []) : exec .presetDelete s = .next (finish .empty s) :=
  if_pos (List.length_eq_zero_iff.mpr h)

theorem exec_presetDelete_of_single (cursor : cursorOk s = true) (h : s.l.length = 1) :
    exec .presetDelete s = .next (finish .ok { s with l := [], c := 0 }) := by
  rw [exec, execPresetDelete, presetDeleteWith, if_neg (by omega), removePreset_of_single cursor h]
  rfl

/-- A deletion that leaves entries ends as SET_STATION does, at the entry under the clamped cursor (R186, R223). -/
theorem exec_presetDelete_of_tunable (two : 2 ≤ s.l.length)
    (h : inTunableRange (entry (afterDelete s).1 (afterDelete s).2)) :
    exec .presetDelete s = exec (.setStation (presetAt (afterDelete s).1 (afterDelete s).2)) (deleted s) := by
  have delete : exec .presetDelete s = .next (retuneCurrent params (deleted s)) :=
    (if_neg (by omega)).trans ((if_neg (afterDelete_length_ne_zero two)).trans (if_pos ((tunable_params _).mpr h)))
  have station : exec (.setStation (presetAt (afterDelete s).1 (afterDelete s).2)) (deleted s) =
      .next (retuneCurrent params (deleted s)) := exec_setStation_of_tunable h (deleted s)
  exact delete.trans station.symm

theorem exec_presetDelete_of_not_tunable (two : 2 ≤ s.l.length)
    (h : ¬ inTunableRange (entry (afterDelete s).1 (afterDelete s).2)) :
    exec .presetDelete s = .next (finish .rangeFault s) :=
  (if_neg (by omega)).trans ((if_neg (afterDelete_length_ne_zero two)).trans (if_neg (mt (tunable_params _).mp h)))

end

/-! ## The capacity of the list in a scan step (R226) -/

section
variable {s u : State} {n : Option Nat} (active : s.scanActive = true) (inBand : scanHz s ≤ maxHz (band s.w))
include active inBand

/-- A step of an active scan with a frequency in the band examines it, at every preset capacity. -/
theorem scanStepWith_of_inBand :
    scanStepWith (capped n) s = .next (scanExamine (capped n) (scanHz s) s) := by
  have freq : scanFreq (capped n) s = scanHz s := scanFreq_params s
  have ends : bounds (capped n) s.w = (minHz (band s.w), maxHz (band s.w)) := bounds_eq s.w
  have inRange : tunable (capped n) (scanHz s) :=
    (tunable_params _).mpr (inTunableRange_of_band (minHz_le_scanHz s) inBand)
  rw [scanStepWith, freq, ends, if_neg (by simp [active]), if_neg (not_lt.mpr inBand), if_pos inRange]

/-- A station is appended while the list has room, and ends the scan at a full list. -/
theorem scanExamine_of_station (run : optimizedTune params (scanHz s) s = (.ok, u)) (d : Drives s u)
    (hb : band u.w = band s.w) (station : accept params u.st.ifc u.st.adc s.scanCode) :
    scanExamine (capped n) (scanHz s) s =
      if n = some s.l.length then endScan .presetFull u
      else finish (scanResult s)
        { u with
          l := s.l ++ [freqReg params (scanHz s)]
          scanIdx := s.scanIdx + 1#16, scanActive := decide (scanResult s = .scanMore) } := by
  have run' : optimizedTune (capped n) (scanHz s) s = (.ok, u) := run
  have station' : accept (capped n) u.st.ifc u.st.adc u.scanCode := by rwa [d.scanCode]
  rw [scanExamine, run', ← scanAdvance_after active inBand d hb, ← d.l]
  dsimp only
  rw [if_pos station']
  by_cases full : n = some u.l.length
  · simp [appendPreset, full]
  · simp only [appendPreset, full, if_false]
    rfl

end

end Sys2Proof.Machine

namespace Sys2Proof

open Machine Claims

/-- Settles O45: on a nonempty list PRESET_NEXT goes to the index after the cursor, modulo the length. -/
theorem presetNextMovesTheCursorForward : Obligations.PresetNextMovesTheCursorForward := by
  refine fun s => ⟨exec_presetNext_of_empty, fun entries fit => ?_, fun entries unfit => ?_⟩
  · obtain ⟨t, run, frame, committed, bits, events⟩ := gotoPreset_of_fits fit
    exact ⟨t, (exec_presetNext_of_nonempty entries).trans run, frame, committed, bits, events⟩
  · exact (exec_presetNext_of_nonempty entries).trans (gotoPreset_of_not_fits unfit)

/-- Settles O46: on a nonempty list PRESET_PREV goes to the index before the cursor, modulo the length. -/
theorem presetPrevMovesTheCursorBack : Obligations.PresetPrevMovesTheCursorBack := by
  refine fun s => ⟨exec_presetPrev_of_empty, fun entries fit => ?_, fun entries unfit => ?_⟩
  · obtain ⟨t, run, frame, committed, bits, events⟩ := gotoPreset_of_fits fit
    exact ⟨t, (exec_presetPrev_of_nonempty entries).trans run, frame, committed, bits, events⟩
  · exact (exec_presetPrev_of_nonempty entries).trans (gotoPreset_of_not_fits unfit)

/-- Settles O47: a deletion that leaves entries ends as SET_STATION does (R186). -/
theorem presetDeleteRemovesAndRetunes : Obligations.PresetDeleteRemovesAndRetunes := by
  refine fun s cursor => ⟨exec_presetDelete_of_empty, exec_presetDelete_of_single cursor, fun two inRange => ?_,
    fun two outside => ?_⟩
  · obtain ⟨t, run, res, frame, unmuted, noSearch, bits, tuned⟩ :=
      setStationFrame (presetAt (afterDelete s).1 (afterDelete s).2) (deleted s) inRange
    have list : t.l = (deleted s).l := by rw [frame]
    have cur : t.c = (deleted s).c := by rw [frame]
    exact ⟨t, (exec_presetDelete_of_tunable two inRange).trans run, res, busFrame_of_deleted frame, list, cur,
      unmuted, noSearch, bits, tuned⟩
  · exact exec_presetDelete_of_not_tunable two outside

/-- Settles O48: the decoded third frame is a station, and the capacity decides whether the list has room for it. -/
theorem fullPresetListEndsTheScan : Obligations.FullPresetListEndsTheScan := by
  intro n s m1 m2 m3 rest active inBand answers h1 h2 h3 station
  obtain ⟨t, examined, tuned⟩ := optimizedTune_of_settled (scanHz s) h1 h2 answers h3
  obtain ⟨sd, -, img⟩ := tuned.w
  have step := scanStepWith_of_inBand (n := some n) active inBand
  rw [scanExamine_of_station active inBand examined tuned.drives (by rw [img, band_tunedImage])
    ((accept_iff_of_decodesTo tuned.st _).mpr station)] at step
  refine ⟨fun full => ?_, fun room => ?_⟩
  · exact ⟨_, step.trans (congrArg _ (if_pos (congrArg some full.symm))), rfl, rfl, tuned.drives.scanIdx, tuned.drives.l⟩
  · refine ⟨_, step.trans (congrArg _ (if_neg (by simp; omega))), ?_, _, freqReg_of_band (minHz_le_scanHz s) inBand, rfl⟩
    obtain result | result := scanResult_cases s <;> rw [finish_res, result]
    · exact .inl rfl
    · exact .inr rfl

/-- Settles O49: what a command writes keeps the cursor valid, and driving the bus leaves list and cursor alone. -/
theorem everyCommandKeepsTheCursorValid : Obligations.EveryCommandKeepsTheCursorValid := fun _ s t empty inside run =>
  (cursorOk_iff t).mp (exec_cursorOk run ((cursorOk_iff s).mpr ⟨empty, inside⟩))

end Sys2Proof

/-! SUPPORT. The result codes (60_exceptions.md R240 to R245, R256). The range check of a command decides how it ends: with
RANGE_FAULT alone where it fails (`exec_of_outOfRange`), else with another code of the command's row of R241
(`endsInRange_of_not_outOfRange`). The statements about result codes, RANGE_FAULT and the fault reading of a step are read
off these two. -/

namespace Sys2Proof.Machine

open Sys2Proof.Claims

/-! ## Deleting under any cursor (R223) -/

/-- A deletion that leaves no entry has no range to check. -/
theorem exec_presetDelete_of_none_left {s : State} (entries : s.l ≠ []) (emptied : (afterDelete s).1 = []) :
    exec .presetDelete s = .next (finish .ok { s with l := (afterDelete s).1, c := 0 }) :=
  (if_neg (mt List.length_eq_zero_iff.mp entries)).trans (if_pos (List.length_eq_zero_iff.mpr emptied))

/-- A deletion that leaves entries checks the one under the clamped cursor, before anything changes. -/
theorem exec_presetDelete_of_left {s : State} (entries : s.l ≠ []) (left : (afterDelete s).1 ≠ []) :
    exec .presetDelete s = if tunable params (entry (afterDelete s).1 (afterDelete s).2)
      then .next (retuneCurrent params (deleted s)) else raiseRangeFault s :=
  (if_neg (mt List.length_eq_zero_iff.mp entries)).trans (if_neg (mt List.length_eq_zero_iff.mp left))

/-! ## A failed range check (R244) -/

/-- A failed range check is RANGE_FAULT and nothing else. A search or scan step never meets one: a frequency inside a band is
tunable (42_optimizer.md R171). -/
theorem exec_of_outOfRange {i : Instr} {s : State} (h : outOfRange i s) : exec i s = raiseRangeFault s := by
  cases i with
  | setFreq f => exact exec_setFreq_of_not_fits h
  | optimize f | setStation f => exact if_neg (mt (tunable_params _).mp h)
  | searchStep up lvl cap => exact absurd (inTunableRange_of_not_wraps h.1) h.2
  | scanStep =>
    obtain ⟨-, inBand, outside⟩ := h
    exact absurd (inTunableRange_of_band (minHz_le_scanHz s) inBand) outside
  | presetNext => exact (exec_presetNext_of_nonempty h.1).trans (gotoPreset_of_not_fits h.2)
  | presetPrev => exact (exec_presetPrev_of_nonempty h.1).trans (gotoPreset_of_not_fits h.2)
  | presetDelete =>
    obtain ⟨entries, left, outside⟩ := h
    exact (exec_presetDelete_of_left entries left).trans (if_neg (mt (tunable_params _).mp outside))
  | _ => exact h.elim

/-- A command with a range check has RANGE_FAULT in its row of R241. -/
theorem rangeFault_mem_resultsOf {i : Instr} {s : State} (h : outOfRange i s) : 11 ∈ resultsOf i := by
  cases i with
  | setFreq | optimize | setStation | searchStep | scanStep | presetNext | presetPrev | presetDelete => simp [resultsOf]
  | _ => exact h.elim

/-! ## Every other end (R240, R241) -/

/-- A command ends normally, with a code of its row of R241 other than RANGE_FAULT. -/
def EndsInRange (i : Instr) (s : State) : Prop := ∃ t, exec i s = .next t ∧ t.res.toNat ∈ (resultsOf i).erase 11

theorem readRaw_endsInRange (s : State) : EndsInRange .readRaw s := by
  obtain ⟨-, e⟩ | ⟨m, -, e⟩ := readRaw_cases params s <;>
    refine ⟨_, by rw [exec, execReadRaw, readRawWith, e], ?_⟩
  · exact .tail _ (.head _)
  · exact .head _

/-- The codes a `readAndDecode` gives (41_bus_status.md R152). -/
theorem readResult_toNat_mem (r : ReadResult) : (resultCode (readResult r)).toNat ∈ [0, 2, 3] := by cases r <;> decide

theorem readDecode_endsInRange (s : State) : EndsInRange .readDecode s :=
  ⟨_, rfl, readResult_toNat_mem _⟩

theorem optimize_endsInRange {f : Freq} {s : State} (h : inTunableRange f.toNat) : EndsInRange (.optimize f) s := by
  obtain ⟨t, run, res, -⟩ := optimizeFrame f s h
  exact ⟨t, run, by obtain res | res := res <;> simp [res, resultsOf]⟩

theorem setStation_endsInRange {f : Freq} {s : State} (h : inTunableRange f.toNat) : EndsInRange (.setStation f) s := by
  obtain ⟨t, run, res, -⟩ := setStationFrame f s h
  exact ⟨t, run, by obtain res | res | res := res <;> simp [res, resultsOf]⟩

theorem searchStep_endsInRange (up : Bool) (lvl : Level) (cap : Bool) (s : State) :
    EndsInRange (.searchStep up lvl cap) s := by
  by_cases h : wraps up s
  · obtain ⟨t, run, same, -⟩ := searchStepWrapsAtTheBandEdge up lvl cap s h
    exact ⟨t, run, by rw [same]; simp [resultsOf]⟩
  · obtain ⟨t, run, res, -⟩ := searchStepProbesInBand up lvl cap s h
    exact ⟨t, run, by obtain res | res | res := res <;> simp [res, resultsOf]⟩

theorem scanStep_endsInRange (s : State) : EndsInRange .scanStep s := by
  obtain ⟨idle, past⟩ := scanStepWithoutAFrequency s
  by_cases active : s.scanActive = true
  · obtain inBand | beyond := le_or_gt (scanHz s) (maxHz (band s.w))
    · obtain ⟨t, run, res, -⟩ := scanStepFrame s active inBand
      exact ⟨t, run, by obtain res | res | res := res <;> rw [res] <;> decide⟩
    · exact ⟨_, past active beyond, by simp [resultsOf]⟩
  · exact ⟨_, idle (by simpa using active), by simp [resultsOf]⟩

/-- A command that recalls preset `n` is EMPTY on the empty list, and OK where the PLL word fits (44_presets.md R221,
R222). -/
theorem recall_endsInRange {i : Instr} {n : Nat} {s : State} (row : resultsOf i = [0, 10, 11])
    (onEmpty : s.l = [] → exec i s = .next (finish .empty s))
    (onEntries : s.l ≠ [] → exec i s = gotoPreset params n s)
    (h : ¬ (s.l ≠ [] ∧ ¬ fits (entry s.l n) (injection s.w))) : EndsInRange i s := by
  rw [EndsInRange, row]
  by_cases entries : s.l = []
  · exact ⟨_, onEmpty entries, by simp [resultCode]⟩
  · obtain ⟨t, run, frame, -⟩ := gotoPreset_of_fits (not_not.mp (not_and.mp h entries))
    exact ⟨t, (onEntries entries).trans run, by rw [frame]; simp⟩

theorem presetDelete_endsInRange {s : State} (h : ¬ outOfRange .presetDelete s) : EndsInRange .presetDelete s := by
  by_cases entries : s.l = []
  · exact ⟨_, exec_presetDelete_of_empty entries, by simp [resultCode, resultsOf]⟩
  by_cases left : (afterDelete s).1 = []
  · exact ⟨_, exec_presetDelete_of_none_left entries left, by simp [resultCode, resultsOf]⟩
  have inRange := not_not.mp (not_and.mp (not_and.mp h entries) left)
  exact ⟨_, (exec_presetDelete_of_left entries left).trans (if_pos ((tunable_params _).mpr inRange)),
    List.mem_append_left [10] (readResult_toNat_mem _)⟩

/-- A command whose range check does not fail ends with another code of its row. -/
theorem endsInRange_of_not_outOfRange {i : Instr} {s : State} (h : ¬ outOfRange i s) : EndsInRange i s := by
  cases i with
  | setFreq f => exact ⟨_, exec_setFreq_of_fits (not_not.mp h), by simp [resultCode, resultsOf]⟩
  | readRaw => exact readRaw_endsInRange s
  | readDecode => exact readDecode_endsInRange s
  | optimize f => exact optimize_endsInRange (not_not.mp h)
  | setStation f => exact setStation_endsInRange (not_not.mp h)
  | searchStep up lvl cap => exact searchStep_endsInRange up lvl cap s
  | scanStep => exact scanStep_endsInRange s
  | presetNext => exact recall_endsInRange rfl exec_presetNext_of_empty exec_presetNext_of_nonempty h
  | presetPrev => exact recall_endsInRange rfl exec_presetPrev_of_empty exec_presetPrev_of_nonempty h
  | presetDelete => exact presetDelete_endsInRange h
  | _ => exact ⟨_, rfl, .head _⟩

/-- The decoder alone answers ILLEGAL (R245). -/
theorem illegal_not_mem_resultsOf (i : Instr) : 12 ∉ resultsOf i := by cases i <;> simp [resultsOf]

/-- A row of R241 names RANGE_FAULT at most once. -/
theorem rangeFault_not_mem_erase (i : Instr) : 11 ∉ (resultsOf i).erase 11 := by cases i <;> simp [resultsOf]

/-! ## The fault reading of a step (R256) -/

/-- What the fault reading makes of the next state of a step that accepted a word. -/
theorem strictStep_of_step {s t : State} {w : Word} {rest : List Word} (hp : s.port = w :: rest) (h : step s = .next t) :
    strictStep s = if t.res = resultCode .rangeFault then .fault .rangeFault
      else if t.res = resultCode .illegal then .fault .illegal else .next t := by
  rw [strictStep, h]
  exact if_neg (by simp [hp])

end Sys2Proof.Machine

namespace Sys2Proof

open Machine Claims

/-- Settles O7, by whether the range check fails. -/
theorem everyCommandEndsWithItsResultCodes : Obligations.EveryCommandEndsWithItsResultCodes := by
  intro i s
  by_cases h : outOfRange i s
  · exact ⟨_, exec_of_outOfRange h, rangeFault_mem_resultsOf h⟩
  · obtain ⟨t, run, code⟩ := endsInRange_of_not_outOfRange h
    exact ⟨t, run, List.mem_of_mem_erase code⟩

/-- Settles O8: a failed check is RANGE_FAULT alone, and a command that passes it ends with another code. -/
theorem rangeFaultChangesOnlyRes : Obligations.RangeFaultChangesOnlyRes := by
  intro i s t run
  by_cases h : outOfRange i s
  · cases run.symm.trans (exec_of_outOfRange h)
    exact ⟨iff_of_true rfl h, fun _ => rfl⟩
  · obtain ⟨u, run', code⟩ := endsInRange_of_not_outOfRange h
    cases run.symm.trans run'
    exact ⟨iff_of_false (fun fault => rangeFault_not_mem_erase i (by rwa [fault] at code)) h, fun out => (h out).elim⟩

/-- Settles O9: the step is read off the result code it ends with, and an in-range command ends with neither fault's. -/
theorem strictStepFaultsOnUndefinedSituations : Obligations.StrictStepFaultsOnUndefinedSituations := by
  intro s w rest hp
  refine ⟨fun illegal => ?_, fun i hd => ⟨fun out => ?_, fun inRange => ?_⟩⟩
  · cases hd : decodeCmd w with
    | ok i => exact absurd hd (illegal i)
    | error e => exact strictStep_of_step hp (step_error hp hd)
  · exact strictStep_of_step hp ((step_ok hp hd).trans (exec_of_outOfRange out))
  · obtain ⟨t, run, code⟩ := endsInRange_of_not_outOfRange inRange
    have next := (step_ok hp hd).trans run
    have noRangeFault : t.res ≠ resultCode .rangeFault := fun fault =>
      rangeFault_not_mem_erase i (by rwa [fault] at code)
    have noIllegal : t.res ≠ resultCode .illegal := fun fault =>
      illegal_not_mem_resultsOf i (List.mem_of_mem_erase (by rwa [fault] at code))
    exact ⟨t, next, by rw [strictStep_of_step hp next, if_neg noRangeFault, if_neg noIllegal]⟩

end Sys2Proof

/-! SUPPORT. What every command records in the bus history (10_state.md R44), said once (`exec_logs`): the events it appends are
paired and addressed as 70_reset_and_hazards.md R285 asks, and are as many as R286 and R292 allow. The bus discipline of a step
and the bus events of a command are read off this. -/

namespace Sys2Proof.Machine

open Sys2Proof.Claims

/-- Command `i` from `s` to `t` appends the events `h` to the history. Each Write has its Settle and each Read asks for five
bytes, all at CHIP_ADDR (R51, R57, R285); the images sent hold the constants of R22 where W does; the counts are within the
limits of the command (R292) and, unless it ends in COMM_ERROR, those of the table of R286. -/
structure Logs (i : Instr) (s t : State) (h : List BusEvent) : Prop where
  events : t.events = s.events ++ h
  paired : historyOk params h = true
  images : imageConst s.w = true → historyImages h = true
  maxWrites : writes h ≤ (busLimits i).1
  maxReads : reads h ≤ (busLimits i).2
  counts : t.res ≠ 3#4 →
    writes h = (busCounts i s t).1 ∧ (busCounts i s t).2.1 ≤ reads h ∧ reads h ≤ (busCounts i s t).2.2

/-! ## The four kinds of command: silent, flushing, reading and tuning -/

section
variable {i : Instr} {s t : State} {h : List BusEvent}

theorem Logs.silent (events : t.events = s.events) (row : busCounts i s t = (0, 0, 0)) : Logs i s t [] where
  events := by rw [events, List.append_nil]
  paired := rfl
  images := fun _ => rfl
  maxWrites := Nat.zero_le _
  maxReads := Nat.zero_le _
  counts := fun _ => by simp [row]

/-- A command that flushes one image and no more (41_bus_status.md R140). -/
theorem Logs.flush {w : Image} (const : imageConst w = imageConst s.w)
    (events : t.events = s.events ++ [.write 0x60#7 w, .settle 35]) (limit : 1 ≤ (busLimits i).1)
    (row : busCounts i s t = (1, 0, 0)) : Logs i s t [.write 0x60#7 w, .settle 35] where
  events := events
  paired := rfl
  images := fun hs => by simpa [historyImages] using const.trans hs
  maxWrites := by simpa using limit
  maxReads := by simp
  counts := fun _ => by simp [row]

/-- A command that only reads, at least once and at most `n` times (R142, R151). -/
theorem ReadsOnly.logs {n : Nat} {r : Result} (a : ReadsOnly params s t h) (least : 1 ≤ h.length) (most : h.length ≤ n)
    (limit : n ≤ (busLimits i).2) (row : busCounts i s (finish r t) = (0, 1, n)) : Logs i s (finish r t) h := by
  obtain ⟨paired, images, noWrites, allReads⟩ := a.reads.shape
  refine ⟨a.events, paired, fun _ => images, by simp [noWrites], ?_, fun _ => ?_⟩
  · rw [allReads]
    exact most.trans limit
  · rw [row, allReads]
    exact ⟨noWrites, least, most⟩

/-- A command that drives the bus by tuning alone, from a state `u` with the history and the constants of `s`: it makes all of
its `n` flushes, each with its reads, unless it ends in COMM_ERROR. -/
theorem Tunes.logs {n : Nat} {u v : State} (a : Tunes params n u v h) (start : u.events = s.events)
    (const : imageConst u.w = imageConst s.w) (stop : t.events = v.events)
    (limits : n ≤ (busLimits i).1 ∧ n * 25 ≤ (busLimits i).2)
    (counts : t.res ≠ 3#4 → busCounts i s t = (n, n, n * 25) ∧ writes h = n ∧ n ≤ reads h) : Logs i s t h where
  events := by rw [stop, a.events, start]
  paired := a.paired
  images := fun hs => a.images (const.trans hs)
  maxWrites := a.maxWrites.trans limits.1
  maxReads := a.maxReads.trans limits.2
  counts := fun ok => by
    obtain ⟨row, all, least⟩ := counts ok
    rw [row]
    exact ⟨all, least, a.maxReads⟩

end

/-! ## The commands that drive the bus -/

/-- Command `i` runs to a state and logs its bus events on the way. -/
def RunsLogged (i : Instr) (s : State) : Prop := ∃ t h, exec i s = .next t ∧ Logs i s t h

section
variable {s : State}

theorem readRaw_logged (s : State) : RunsLogged .readRaw s := by
  obtain ⟨-, e⟩ | ⟨m, -, e⟩ := readRaw_cases params s
  · exact ⟨finish .timeout _, _, by rw [exec, execReadRaw, readRawWith, e],
      (busRead_readsOnly_timeout params s).logs (n := 1) le_rfl le_rfl le_rfl rfl⟩
  · exact ⟨finish .ok _, _, by rw [exec, execReadRaw, readRawWith, e],
      (busRead_readsOnly_frame params s m).logs (n := 1) le_rfl le_rfl le_rfl rfl⟩

theorem readDecode_logged (s : State) : RunsLogged .readDecode s := by
  obtain ⟨h, reads, most, least⟩ := (readAndDecode_ends params (by decide) s).reads
  exact ⟨_, h, rfl, reads.logs (least (by decide)) most le_rfl rfl⟩

theorem optimize_logged {f : Freq} (hf : inTunableRange f.toNat) : RunsLogged (.optimize f) s := by
  obtain ⟨h, u, sd, run, tunes, all, least, -⟩ | ⟨h, u, run, tunes, -⟩ :=
    optimize_cases params (by decide) (by decide) f.toNat s
  · exact ⟨_, h, exec_optimize_of_chooses hf run, tunes.logs rfl rfl rfl (by simp [busLimits]) fun _ => ⟨rfl, all, least⟩⟩
  · exact ⟨_, h, exec_optimize_of_commError hf run, tunes.logs rfl rfl rfl (by simp [busLimits]) (absurd rfl)⟩

/-- A command that ends as `setStation` does tunes three times (R185, R286), once it has set up the registers of `u`. -/
theorem setStation_logs {i : Instr} {u : State} (f : Int) (start : u.events = s.events) (image : u.w = s.w)
    (limits : busLimits i = (3, 75))
    (row : ∀ r t, r ≠ .rangeFault → t.l = u.l → busCounts i s (finish r t) = (3, 3, 75)) :
    ∃ h, Logs i s (finish (readResult (setStation params f u).1) (setStation params f u).2) h := by
  obtain ⟨h, tunes, ends, -⟩ := setStation_cases params (by decide) (by decide) f u
  refine ⟨h, tunes.logs start (congrArg imageConst image) rfl (by simp [limits]) fun ok => ?_⟩
  have noCommError : (setStation params f u).1 ≠ .commError := fun e => ok (by rw [e]; rfl)
  obtain ⟨all, least, -⟩ := ends noCommError
  exact ⟨row _ _ (readResult_ne_rangeFault _) tunes.l_eq, all, least⟩

/-- Only RANGE_FAULT has the number 11 (R241). -/
theorem resultCode_toNat_ne_rangeFault {r : Result} (h : r ≠ .rangeFault) : (resultCode r).toNat ≠ 11 :=
  fun e => h (resultCode_toNat_injective e)

theorem setStation_logged {f : Freq} (hf : inTunableRange f.toNat) : RunsLogged (.setStation f) s := by
  obtain ⟨h, logs⟩ := setStation_logs (i := .setStation f) (s := s) f.toNat rfl rfl rfl fun r t hr _ =>
    if_neg (resultCode_toNat_ne_rangeFault hr)
  exact ⟨_, h, exec_setStation_of_tunable hf s, logs⟩

/-- The probe of a search step tunes three times, and the re-tune of an accepted one three times more (R187, R190, R286). -/
theorem searchProbe_logs (up : Bool) (lvl : Level) (cap : Bool) (s : State) :
    ∃ h, Logs (.searchStep up lvl cap) s (searchProbe params (levelCode lvl) cap (advanceProbe up lvl s)) h := by
  obtain ⟨t, g, probe, -, e⟩ :=
    searchProbe_cases params (by decide) (by decide) (levelCode lvl) cap (advanceProbe up lvl s)
  obtain e | ⟨⟨all, least, -⟩, e | ⟨-, e⟩⟩ := e <;> rw [e]
  · exact ⟨g, probe.logs rfl rfl rfl (by simp [busLimits]) (absurd rfl)⟩
  · exact ⟨g, probe.logs rfl rfl rfl (by simp [busLimits]) fun _ => ⟨rfl, all, least⟩⟩
  obtain ⟨u, g', station, -, e⟩ := searchAccepted_cases params (by decide) (by decide) cap t
  have both := probe.trans station
  refine ⟨g ++ g', ?_⟩
  obtain e | ⟨⟨all', least', -⟩, e⟩ := e
  · rw [e]
    exact both.logs rfl rfl rfl (by simp [busLimits]) (absurd rfl)
  have counts : writes (g ++ g') = 6 ∧ 6 ≤ reads (g ++ g') := by
    rw [writes_append, reads_append]
    omega
  obtain ⟨-, e⟩ | ⟨-, -, e⟩ | ⟨-, full, -⟩ := e
  · rw [e]
    exact both.logs rfl rfl rfl (by simp [busLimits]) fun _ => ⟨rfl, counts⟩
  · rw [e]
    exact both.logs rfl rfl rfl (by simp [busLimits]) fun _ => ⟨rfl, counts⟩
  · exact nomatch full

theorem searchStep_logged (up : Bool) (lvl : Level) (cap : Bool) (s : State) : RunsLogged (.searchStep up lvl cap) s := by
  by_cases h : wraps up s
  · exact ⟨_, [], if_pos ((searchWraps_params up s).mpr h), .silent rfl rfl⟩
  · obtain ⟨g, logs⟩ := searchProbe_logs up lvl cap s
    exact ⟨_, g, exec_searchStep_of_not_wraps h lvl cap, logs⟩

/-- Advancing the scan records no event and moves the index (R196). -/
theorem scanAdvance_events_scanIdx (u : State) :
    (scanAdvance params u).events = u.events ∧ (scanAdvance params u).scanIdx = u.scanIdx + 1#16 := by
  obtain ⟨-, e⟩ | ⟨-, e⟩ := scanAdvance_cases params u <;> rw [e] <;> exact ⟨rfl, rfl⟩

/-- An examined scan step that advances the index has tuned three times (R196, R286). -/
theorem scanStep_logs {u v : State} {h : List BusEvent} (tunes : Tunes params 3 s u h) (all : writes h = 3)
    (least : 3 ≤ reads h) (events : v.events = u.events) (idx : v.scanIdx = u.scanIdx) :
    Logs .scanStep s (scanAdvance params v) h := by
  obtain ⟨events', idx'⟩ := scanAdvance_events_scanIdx v
  refine tunes.logs rfl rfl (events'.trans events) (by simp [busLimits]) fun _ => ⟨if_neg ?_, all, least⟩
  rw [idx', idx, tunes.scanIdx_eq]
  simp

theorem scanStep_logged (s : State) : RunsLogged .scanStep s := by
  obtain ⟨idle, past⟩ := scanStepWithoutAFrequency s
  by_cases active : s.scanActive = true
  case neg => exact ⟨_, [], idle (by simpa using active), .silent rfl (if_pos rfl)⟩
  obtain inBand | beyond := le_or_gt (scanHz s) (maxHz (band s.w))
  case inr => exact ⟨_, [], past active beyond, .silent rfl (if_pos rfl)⟩
  obtain ⟨u, h, tunes, -, e⟩ := scanExamine_cases params (by decide) (by decide) (scanHz s) s
  refine ⟨_, h, exec_scanStep_of_inBand active inBand, ?_⟩
  obtain e | ⟨⟨all, least, -⟩, e | ⟨-, ⟨-, e⟩ | ⟨full, -⟩⟩⟩ := e
  · rw [e]
    exact tunes.logs rfl rfl rfl (by simp [busLimits]) (absurd rfl)
  · rw [e]
    exact scanStep_logs tunes all least rfl rfl
  · rw [e]
    exact scanStep_logs tunes all least rfl rfl
  · exact nomatch full

/-- Recalling preset `n` is one flush where its PLL word fits, and no event on the empty list (44_presets.md R221, R222). -/
theorem recall_logged {i : Instr} {n : Nat} (limit : 1 ≤ (busLimits i).1)
    (row : ∀ t, busCounts i s t = if t.res.toNat = 0 then (1, 0, 0) else (0, 0, 0))
    (onEmpty : s.l = [] → exec i s = .next (finish .empty s)) (onEntries : s.l ≠ [] → exec i s = gotoPreset params n s)
    (h : ¬ (s.l ≠ [] ∧ ¬ fits (entry s.l n) (injection s.w))) : RunsLogged i s := by
  by_cases entries : s.l = []
  · exact ⟨_, [], onEmpty entries, .silent rfl (row _)⟩
  · have fit := not_not.mp (not_and.mp h entries)
    exact ⟨_, _, (onEntries entries).trans (if_pos ((pllOK_iff_fits _ _).mpr (by rwa [sideBit_side]))),
      .flush (w := (tune params (entry s.l n) s).w) rfl (flush_events _ _) limit (row _)⟩

/-- A deletion drives the bus exactly when it leaves entries (R223). -/
theorem presetDelete_logged (h : ¬ outOfRange .presetDelete s) : RunsLogged .presetDelete s := by
  by_cases entries : s.l = []
  · exact ⟨_, [], exec_presetDelete_of_empty entries, .silent rfl (if_pos (.inl entries))⟩
  by_cases left : (afterDelete s).1 = []
  · exact ⟨_, [], exec_presetDelete_of_none_left entries left, .silent rfl (if_pos (.inl left))⟩
  have inRange := not_not.mp (not_and.mp (not_and.mp h entries) left)
  obtain ⟨g, logs⟩ := setStation_logs (i := .presetDelete) (s := s) (u := deleted s)
    (entry (afterDelete s).1 (afterDelete s).2) rfl rfl rfl fun r t hr hl =>
    if_neg (not_or.mpr ⟨fun empty => left (hl.symm.trans empty), resultCode_toNat_ne_rangeFault hr⟩)
  exact ⟨_, g, (exec_presetDelete_of_left entries left).trans (if_pos ((tunable_params _).mpr inRange)), logs⟩

end

/-! ## Every command -/

/-- A failed range check records no event (R244). -/
theorem rangeFault_logs {i : Instr} {s : State} (h : outOfRange i s) : Logs i s (finish .rangeFault s) [] := by
  refine .silent rfl ?_
  cases i with
  | setFreq | optimize | setStation | searchStep | presetNext | presetPrev => rfl
  | scanStep => exact if_pos rfl
  | presetDelete => exact if_pos (.inr rfl)
  | _ => exact h.elim

theorem runsLogged (i : Instr) (s : State) : RunsLogged i s := by
  by_cases h : outOfRange i s
  · exact ⟨_, [], exec_of_outOfRange h, rangeFault_logs h⟩
  cases i with
  | setFreq f => exact ⟨_, [], exec_setFreq_of_fits (not_not.mp h), .silent rfl rfl⟩
  | flush => exact ⟨_, _, rfl, .flush rfl (flush_events params s) le_rfl rfl⟩
  | readRaw => exact readRaw_logged s
  | readDecode => exact readDecode_logged s
  | optimize f => exact optimize_logged (not_not.mp h)
  | setStation f => exact setStation_logged (not_not.mp h)
  | searchStep up lvl cap => exact searchStep_logged up lvl cap s
  | scanStep => exact scanStep_logged s
  | presetNext => exact recall_logged le_rfl (fun _ => rfl) exec_presetNext_of_empty exec_presetNext_of_nonempty h
  | presetPrev => exact recall_logged le_rfl (fun _ => rfl) exec_presetPrev_of_empty exec_presetPrev_of_nonempty h
  | presetDelete => exact presetDelete_logged h
  | _ => exact ⟨_, [], rfl, .silent rfl rfl⟩

theorem exec_logs {i : Instr} {s t : State} (run : exec i s = .next t) : ∃ h, Logs i s t h := by
  obtain ⟨u, h, run', logs⟩ := runsLogged i s
  cases run.symm.trans run'
  exact ⟨h, logs⟩

/-! ## The bus discipline (R285) -/

/-- The bus discipline of a state: what R22 says of W, and what R51, R61, R283 and R285 say of the history. -/
structure Disciplined (s : State) : Prop where
  image : imageConst s.w = true
  paired : historyOk params s.events = true
  images : historyImages s.events = true

theorem KeepsConst.imageConst_eq {v w : Image} (keeps : KeepsConst v w) : imageConst w = imageConst v := by
  rw [imageConst, imageConst, keeps.xtal, keeps.pllRef, keeps.low]

/-- Every command appends a disciplined block to the history, and writes none of the constants of W (R125). -/
theorem Disciplined.exec {i : Instr} {s t : State} (d : Disciplined s) (run : exec i s = .next t) : Disciplined t := by
  obtain ⟨h, logs⟩ := exec_logs run
  refine ⟨(exec_keepsConst run).imageConst_eq.trans d.image, ?_, ?_⟩ <;> rw [logs.events]
  · exact historyOk_append d.paired logs.paired
  · rw [historyImages_append, d.images, logs.images d.image, Bool.and_self]

/-- The host's stream of words and the result code are no part of the discipline. -/
theorem Disciplined.withPort {s : State} (d : Disciplined s) (port : List Word) : Disciplined { s with port := port } :=
  { d with }

theorem Disciplined.finish {s : State} (d : Disciplined s) (r : Result) : Disciplined (finish r s) := { d with }

end Sys2Proof.Machine

namespace Sys2Proof

open Machine Claims

/-- Settles O56: the word at the port ends with ILLEGAL or runs a command, and a command keeps the discipline. -/
theorem everyStepKeepsTheBusDiscipline : Obligations.EveryStepKeepsTheBusDiscipline := by
  intro s t image paired images h
  have d : Disciplined s := ⟨image, paired, images⟩
  suffices Disciplined t from ⟨this.image, this.paired, this.images⟩
  obtain rfl | ⟨rest, rfl | ⟨i, run⟩⟩ := step_cases h
  · exact d
  · exact (d.withPort rest).finish .illegal
  · exact (d.withPort rest).exec run

/-- Settles O55, by what every command logs; a paired block has as many Settles as Writes. -/
theorem busEventsPerCommand : Obligations.BusEventsPerCommand := by
  intro i s t run
  obtain ⟨h, logs⟩ := exec_logs run
  exact ⟨h, logs.events, historyOk_settles logs.paired, logs.maxWrites, logs.maxReads, logs.counts⟩

/-- Settles O59: BAND0_MIN_HZ lies in a band of a well-formed configuration, so P holds it; the other fields are read off. -/
theorem resetLeavesTheStatedValues : Obligations.ResetLeavesTheStatedValues := by
  refine ⟨fun k wellFormed => ?_, rfl, rfl, rfl, rfl, rfl, rfl, rfl, rfl, rfl, rfl, rfl, rfl, rfl, rfl⟩
  obtain ⟨-, -, ordered, holds⟩ := search_of_wellFormed wellFormed State.reset.w
  exact holds k.band0MinHz le_rfl ordered

end Sys2Proof
